-- ==== Sys2Proof/Word.lean ====
section
/-! DEFINITION. The bit-vector types of the block: what the spec itself cuts into bits (30_encoding.md R80, R81;
60_exceptions.md R200). Values of registers, words and ports are unsigned integers with exact arithmetic
(00_scope.md R10) and are natural numbers in this model, bounded by `Sys2Proof.Machine.State.widthsOk`
(notes/assumptions/10.md). -/

namespace Sys2Proof

/-- A command word: exactly 32 bits (R80). -/
abbrev CmdWord := BitVec 32

/-- A register number: a 4-bit field `ra`, `rb` or `rc`, all sixteen values valid (R81, R83). -/
abbrev RegNum := BitVec 4

/-- A buffer number: a 4-bit field; values `>= NBUF` are a bound error of the command (R83). -/
abbrev BufNum := BitVec 4

/-- The unsigned 16-bit immediate `imm16`, used as it stands (R81). -/
abbrev Imm16 := BitVec 16

/-- The 4-bit code a command ends with (R200). -/
abbrev ErrCode := BitVec 4

end Sys2Proof
end

