-- ==== Sys2Proof/Syntax.lean ====
section
/-! DEFINITION. The 30 commands of 30_encoding.md R84, one constructor per row of spec/opcode_table.json. -/

namespace Sys2Proof

/-- A command. Operands stand in field order `ra`, `rb`, `rc`, `imm16`; a buffer operand is a `BufNum`. -/
inductive Instr where
  | nop
  | setr (ra : RegNum)
  | getr (ra : RegNum)
  | mov (ra rb : RegNum)
  | getc (imm : Imm16)
  | setctx (ra : RegNum) (imm : Imm16)
  | ldc (ra : RegNum) (rb : BufNum) (imm : Imm16)
  | stc (ra : RegNum) (rb : BufNum) (imm : Imm16)
  | sett (ra : RegNum) (imm : Imm16)
  | gett (ra : RegNum) (imm : Imm16)
  | clrerr
  | add (ra rb rc : RegNum)
  | sub (ra rb rc : RegNum)
  | neg (ra rb : RegNum)
  | mul (ra rb rc : RegNum)
  | pow (ra rb rc : RegNum)
  | pwmul (ra rb : BufNum)
  | inv (ra rb : RegNum)
  | tbuild
  | twd (ra : RegNum) (imm : Imm16)
  | brev (ra rb : RegNum)
  | brperm (ra : BufNum)
  | bfly (ra rb rc : RegNum)
  | nttfwd (ra : BufNum)
  | nttinv (ra : BufNum)
  | setlimb (ra : RegNum) (imm : Imm16)
  | crtbuild (imm : Imm16)
  | compose (ra : RegNum)
  | decomp (ra : RegNum)
  | rescale (ra rb : RegNum)
  deriving DecidableEq, Repr

end Sys2Proof
end

