-- ==== Sys2Proof/WellFormed.lean ====
section
/-! DEFINITION. Which commands have an encoding (30_encoding.md R82): the field types bound every operand, so the one
check left is that `BFLY` names two different registers (46_ntt_butterfly.md R161). -/

namespace Sys2Proof

/-- The command is one that some legal command word spells (R82). -/
def Instr.wellFormed : Instr → Bool
  | .nop => true
  | .setr _ => true
  | .getr _ => true
  | .mov _ _ => true
  | .getc _ => true
  | .setctx _ _ => true
  | .ldc _ _ _ => true
  | .stc _ _ _ => true
  | .sett _ _ => true
  | .gett _ _ => true
  | .clrerr => true
  | .add _ _ _ => true
  | .sub _ _ _ => true
  | .neg _ _ => true
  | .mul _ _ _ => true
  | .pow _ _ _ => true
  | .pwmul _ _ => true
  | .inv _ _ => true
  | .tbuild => true
  | .twd _ _ => true
  | .brev _ _ => true
  | .brperm _ => true
  | .bfly ra rb _ => ra != rb
  | .nttfwd _ => true
  | .nttinv _ => true
  | .setlimb _ _ => true
  | .crtbuild _ => true
  | .compose _ => true
  | .decomp _ => true
  | .rescale _ _ => true

end Sys2Proof
end

