-- ==== Sys2Proof/Decode.lean ====
section
/-! DEFINITION. Decoding and encoding of command words (30_encoding.md R80 to R86). Decoding is total: a word that is no
command is rejected by name, and the block answers it with `IllegalCommand` (R82, R86). -/

namespace Sys2Proof

/-- Why a word is no command (R86). -/
inductive DecodeError where
  /-- The opcode is one of the 226 values R84 does not assign. -/
  | unassignedOpcode
  /-- A must-be-zero bit of the command's format is set (R81). -/
  | nonzeroReservedBits
  /-- `BFLY` with `ra = rb` (R82, R161). -/
  | butterflySameRegisters
  deriving DecidableEq, Repr

/-- Bits 31:24 (R81). -/
def opField (w : CmdWord) : BitVec 8 := w.extractLsb' 24 8
/-- Bits 23:20 (R81). -/
def raField (w : CmdWord) : BitVec 4 := w.extractLsb' 20 4
/-- Bits 19:16 (R81). -/
def rbField (w : CmdWord) : BitVec 4 := w.extractLsb' 16 4
/-- Bits 15:12 (R81). -/
def rcField (w : CmdWord) : BitVec 4 := w.extractLsb' 12 4
/-- Bits 11:0, the field `z12` (R81). -/
def z12Field (w : CmdWord) : BitVec 12 := w.extractLsb' 0 12
/-- Bits 15:0 (R81). -/
def immField (w : CmdWord) : BitVec 16 := w.extractLsb' 0 16

/-- A word of a format whose must-be-zero bits have been looked at (R82). -/
def accept (mustBeZero : Bool) (i : Instr) : Except DecodeError Instr :=
  if mustBeZero then .ok i else .error .nonzeroReservedBits

/-- Format `REG0`: bits 23:0 must be zero (R81). -/
def decodeReg0 (w : CmdWord) (i : Instr) : Except DecodeError Instr :=
  accept (raField w == 0 && rbField w == 0 && immField w == 0) i

/-- Format `REG1`: bits 19:0 must be zero (R81). -/
def decodeReg1 (w : CmdWord) (f : BitVec 4 → Instr) : Except DecodeError Instr :=
  accept (rbField w == 0 && immField w == 0) (f (raField w))

/-- Format `REG2`: bits 15:0 must be zero (R81). -/
def decodeReg2 (w : CmdWord) (f : BitVec 4 → BitVec 4 → Instr) : Except DecodeError Instr :=
  accept (immField w == 0) (f (raField w) (rbField w))

/-- Format `REG3`: bits 11:0 must be zero (R81). -/
def decodeReg3 (w : CmdWord) (f : BitVec 4 → BitVec 4 → BitVec 4 → Instr) : Except DecodeError Instr :=
  accept (z12Field w == 0) (f (raField w) (rbField w) (rcField w))

/-- Format `IMM0`: bits 23:16 must be zero (R81). -/
def decodeImm0 (w : CmdWord) (f : Imm16 → Instr) : Except DecodeError Instr :=
  accept (raField w == 0 && rbField w == 0) (f (immField w))

/-- Format `IMM1`: bits 19:16 must be zero (R81). -/
def decodeImm1 (w : CmdWord) (f : BitVec 4 → Imm16 → Instr) : Except DecodeError Instr :=
  accept (rbField w == 0) (f (raField w) (immField w))

/-- Format `IMM2`: every bit is used (R81). -/
def decodeImm2 (w : CmdWord) (f : BitVec 4 → BitVec 4 → Imm16 → Instr) : Except DecodeError Instr :=
  .ok (f (raField w) (rbField w) (immField w))

/-- Format `REG3` with the extra condition `ra != rb` of `BFLY` (R82). -/
def decodeBfly (w : CmdWord) : Except DecodeError Instr :=
  if z12Field w != 0 then .error .nonzeroReservedBits
  else if raField w == rbField w then .error .butterflySameRegisters
  else .ok (.bfly (raField w) (rbField w) (rcField w))

/-- The command a word spells, or why it spells none: the opcode map R84 with the formats of R81. -/
def decode (w : CmdWord) : Except DecodeError Instr :=
  match (opField w).toNat with
  | 0x00 => decodeReg0 w .nop
  | 0x01 => decodeReg1 w .setr
  | 0x02 => decodeReg1 w .getr
  | 0x03 => decodeReg2 w .mov
  | 0x04 => decodeImm0 w .getc
  | 0x05 => decodeImm1 w .setctx
  | 0x06 => decodeImm2 w .ldc
  | 0x07 => decodeImm2 w .stc
  | 0x08 => decodeImm1 w .sett
  | 0x09 => decodeImm1 w .gett
  | 0x0A => decodeReg0 w .clrerr
  | 0x10 => decodeReg3 w .add
  | 0x11 => decodeReg3 w .sub
  | 0x12 => decodeReg2 w .neg
  | 0x20 => decodeReg3 w .mul
  | 0x21 => decodeReg3 w .pow
  | 0x22 => decodeReg2 w .pwmul
  | 0x30 => decodeReg2 w .inv
  | 0x40 => decodeReg0 w .tbuild
  | 0x41 => decodeImm1 w .twd
  | 0x50 => decodeReg2 w .brev
  | 0x51 => decodeReg1 w .brperm
  | 0x60 => decodeBfly w
  | 0x61 => decodeReg1 w .nttfwd
  | 0x62 => decodeReg1 w .nttinv
  | 0x70 => decodeImm1 w .setlimb
  | 0x71 => decodeImm0 w .crtbuild
  | 0x72 => decodeReg1 w .compose
  | 0x80 => decodeReg1 w .decomp
  | 0x81 => decodeReg2 w .rescale
  | _ => .error .unassignedOpcode

/-- The decoder's verdict on an instruction given as the bits `w` of an opcode-table row of `nbits` bits; the bits above
`nbits` are zero. A command is one 32-bit word, whose bit 0 is the table's bit 0. -/
def decodeTableWord (nbits w : Nat) : Option Instr :=
  (decode (BitVec.ofNat 32 (w % 2 ^ nbits))).toOption

/-- A word of a format with `rc` (R81). -/
def encodeReg (op : BitVec 8) (ra rb rc : BitVec 4) : CmdWord :=
  op ++ (ra ++ (rb ++ (rc ++ (0 : BitVec 12))))

/-- A word of a format with `imm16` (R81). -/
def encodeImm (op : BitVec 8) (ra rb : BitVec 4) (imm : Imm16) : CmdWord :=
  op ++ (ra ++ (rb ++ imm))

/-- The command word of a command: the column `cmd` of R84. -/
def encode : Instr → CmdWord
  | .nop => encodeReg 0x00 0 0 0
  | .setr ra => encodeReg 0x01 ra 0 0
  | .getr ra => encodeReg 0x02 ra 0 0
  | .mov ra rb => encodeReg 0x03 ra rb 0
  | .getc imm => encodeImm 0x04 0 0 imm
  | .setctx ra imm => encodeImm 0x05 ra 0 imm
  | .ldc ra rb imm => encodeImm 0x06 ra rb imm
  | .stc ra rb imm => encodeImm 0x07 ra rb imm
  | .sett ra imm => encodeImm 0x08 ra 0 imm
  | .gett ra imm => encodeImm 0x09 ra 0 imm
  | .clrerr => encodeReg 0x0A 0 0 0
  | .add ra rb rc => encodeReg 0x10 ra rb rc
  | .sub ra rb rc => encodeReg 0x11 ra rb rc
  | .neg ra rb => encodeReg 0x12 ra rb 0
  | .mul ra rb rc => encodeReg 0x20 ra rb rc
  | .pow ra rb rc => encodeReg 0x21 ra rb rc
  | .pwmul ra rb => encodeReg 0x22 ra rb 0
  | .inv ra rb => encodeReg 0x30 ra rb 0
  | .tbuild => encodeReg 0x40 0 0 0
  | .twd ra imm => encodeImm 0x41 ra 0 imm
  | .brev ra rb => encodeReg 0x50 ra rb 0
  | .brperm ra => encodeReg 0x51 ra 0 0
  | .bfly ra rb rc => encodeReg 0x60 ra rb rc
  | .nttfwd ra => encodeReg 0x61 ra 0 0
  | .nttinv ra => encodeReg 0x62 ra 0 0
  | .setlimb ra imm => encodeImm 0x70 ra 0 imm
  | .crtbuild imm => encodeImm 0x71 0 0 imm
  | .compose ra => encodeReg 0x72 ra 0 0
  | .decomp ra => encodeReg 0x80 ra 0 0
  | .rescale ra rb => encodeReg 0x81 ra rb 0

/-- A row of the opcode map R84: the mnemonic, and the word and mask that select the row. -/
structure OpcodeRow where
  mnemonic : String
  pat : CmdWord
  mask : CmdWord
  deriving DecidableEq, Repr

/-- The opcode map R84 (spec/opcode_table.json): a word `w` selects the row with `(w AND mask) = match` (R82). -/
def opcodeTable : List OpcodeRow :=
  [ ⟨"NOP", 0x00000000, 0xFFFFFFFF⟩, ⟨"SETR", 0x01000000, 0xFF0FFFFF⟩, ⟨"GETR", 0x02000000, 0xFF0FFFFF⟩,
    ⟨"MOV", 0x03000000, 0xFF00FFFF⟩, ⟨"GETC", 0x04000000, 0xFFFF0000⟩, ⟨"SETCTX", 0x05000000, 0xFF0F0000⟩,
    ⟨"LDC", 0x06000000, 0xFF000000⟩, ⟨"STC", 0x07000000, 0xFF000000⟩, ⟨"SETT", 0x08000000, 0xFF0F0000⟩,
    ⟨"GETT", 0x09000000, 0xFF0F0000⟩, ⟨"CLRERR", 0x0A000000, 0xFFFFFFFF⟩ ] ++
  [ ⟨"ADD", 0x10000000, 0xFF000FFF⟩, ⟨"SUB", 0x11000000, 0xFF000FFF⟩, ⟨"NEG", 0x12000000, 0xFF00FFFF⟩,
    ⟨"MUL", 0x20000000, 0xFF000FFF⟩, ⟨"POW", 0x21000000, 0xFF000FFF⟩, ⟨"PWMUL", 0x22000000, 0xFF00FFFF⟩,
    ⟨"INV", 0x30000000, 0xFF00FFFF⟩, ⟨"TBUILD", 0x40000000, 0xFFFFFFFF⟩, ⟨"TWD", 0x41000000, 0xFF0F0000⟩ ] ++
  [ ⟨"BREV", 0x50000000, 0xFF00FFFF⟩, ⟨"BRPERM", 0x51000000, 0xFF0FFFFF⟩, ⟨"BFLY", 0x60000000, 0xFF000FFF⟩,
    ⟨"NTTFWD", 0x61000000, 0xFF0FFFFF⟩, ⟨"NTTINV", 0x62000000, 0xFF0FFFFF⟩, ⟨"SETLIMB", 0x70000000, 0xFF0F0000⟩,
    ⟨"CRTBUILD", 0x71000000, 0xFFFF0000⟩, ⟨"COMPOSE", 0x72000000, 0xFF0FFFFF⟩,
    ⟨"DECOMP", 0x80000000, 0xFF0FFFFF⟩, ⟨"RESCALE", 0x81000000, 0xFF00FFFF⟩ ]

/-- The row of R84 a command belongs to, by its mnemonic. -/
def Instr.mnemonic : Instr → String
  | .nop => "NOP"
  | .setr _ => "SETR"
  | .getr _ => "GETR"
  | .mov _ _ => "MOV"
  | .getc _ => "GETC"
  | .setctx _ _ => "SETCTX"
  | .ldc _ _ _ => "LDC"
  | .stc _ _ _ => "STC"
  | .sett _ _ => "SETT"
  | .gett _ _ => "GETT"
  | .clrerr => "CLRERR"
  | .add _ _ _ => "ADD"
  | .sub _ _ _ => "SUB"
  | .neg _ _ => "NEG"
  | .mul _ _ _ => "MUL"
  | .pow _ _ _ => "POW"
  | .pwmul _ _ => "PWMUL"
  | .inv _ _ => "INV"
  | .tbuild => "TBUILD"
  | .twd _ _ => "TWD"
  | .brev _ _ => "BREV"
  | .brperm _ => "BRPERM"
  | .bfly _ _ _ => "BFLY"
  | .nttfwd _ => "NTTFWD"
  | .nttinv _ => "NTTINV"
  | .setlimb _ _ => "SETLIMB"
  | .crtbuild _ => "CRTBUILD"
  | .compose _ => "COMPOSE"
  | .decomp _ => "DECOMP"
  | .rescale _ _ => "RESCALE"

end Sys2Proof
end

