-- ==== Sys2Proof/Config.lean ====
section
/-! DEFINITION. What an instance of the block fixes (00_scope.md R5) and the values the spec leaves open
(10_state.md R28, R29). -/

namespace Sys2Proof

/-- One entry of a `PSI_SELECT` table: for degree `n` and prime `p` the chosen root is `psi`
(44_twiddle_rom.md R146). -/
structure PsiEntry where
  n : Nat
  p : Nat
  psi : Nat
  deriving DecidableEq, Repr

/-- The implementation parameters of 00_scope.md R5. `psiTable` is `PSI_SELECT` as finite data: how it is read is
`Sys2Proof.Machine.psiSelect` (DESIGN CHOICE, notes/assumptions/4.md). -/
structure Params where
  w : Nat
  kmax : Nat
  lognmax : Nat
  nbuf : Nat
  psiTable : List PsiEntry
  deriving DecidableEq, Repr

/-- `WM = KMAX * W`, the width of a register and of the data ports (R5). -/
def Params.wm (P : Params) : Nat := P.kmax * P.w

/-- `NMAX = 2^LOGNMAX` (R5). -/
def Params.nmax (P : Params) : Nat := 2 ^ P.lognmax

/-- The constraints of R5: parameters outside them are no instance of the spec (93_implementation_defined.md U15). -/
def Params.legal (P : Params) : Bool :=
  decide (2 ≤ P.w ∧ P.w ≤ 255 ∧ 1 ≤ P.kmax ∧ P.kmax ≤ 8 ∧ P.lognmax ≤ 15 ∧ 1 ≤ P.nbuf ∧ P.nbuf ≤ 15)

/-- The reference instance of R5: `W = 32`, `KMAX = 4`, `LOGNMAX = 10`, `NBUF = 4`, and for `PSI_SELECT` the least
root (an empty table). -/
def Params.reference : Params :=
  { w := 32, kmax := 4, lognmax := 10, nbuf := 4, psiTable := [] }

/-- FREE VALUE (10_state.md R28, U4; notes/assumptions/5.md): what word `i` of buffer `b` holds from a reset until a
command writes it; the first argument counts the resets. Its low `W` bits are used. -/
opaque Config.freeBufWord : Nat → Nat → Nat → Nat

/-- FREE VALUE (10_state.md R28, R39, U4; notes/assumptions/7.md): what word `i` of buffer `b` holds from a reset event
until a command writes it, when it held a written value before. Its value is unspecified, but reset does not write the
buffers, so it may depend on the value held before, the last argument; the first argument counts the resets. Its low `W`
bits are used. -/
opaque Config.freeResetWord : Nat → Nat → Nat → Nat → Nat

/-- FREE VALUE (10_state.md R29, U5; notes/assumptions/6.md): what ROM word `j` holds from a reset until `TBUILD`
writes it; the first argument counts the resets. Its low `W` bits are used. -/
opaque Config.freeRomWord : Nat → Nat → Nat

/-- FREE VALUE (00_scope.md R10, R11; notes/assumptions/16.md): what a register or the read port of the given width
holds when a rule sends it a value that does not fit. Only instances with `WM < 21` or `WM < LOGNMAX` have such a value
(`GETC`, `BREV`). Its low `WM` bits are used. -/
opaque Config.freeNarrow : Nat → Nat → Nat

end Sys2Proof
end

