-- ==== Sys2Proof/Machine/State.lean ====
section
/-! DEFINITION. The state of the block: everything 10_state.md R20 lists, the host's transaction interface
(00_scope.md R8, R19), and the model's own counter of resets. -/

namespace Sys2Proof.Machine

open Sys2Proof

/-- The errors of 60_exceptions.md R201, with the codes no command produces kept (R203, U11). -/
inductive Err where
  /-- Code 1: `SETCTX`, `TBUILD`, `SETLIMB`, `CRTBUILD`. -/
  | invalidModulus
  /-- Code 2: `TBUILD` without a root; unreachable (44_twiddle_rom.md R149). -/
  | noPrimitiveRoot
  /-- Code 3: never raised (R203). -/
  | lengthMismatch
  /-- Code 4: a buffer number, word index, tuple or limb index, or control register number out of bounds. -/
  | indexOutOfRange
  /-- Code 5: `INV` of a non-unit. -/
  | notInvertible
  /-- Code 6: never raised (R203). -/
  | incompatibleRings
  /-- Code 7: `RESCALE` to a modulus that is no sub-product of the limbs. -/
  | modulusMismatch
  /-- Code 8: a word that is no command. -/
  | illegalCommand
  /-- Code 9: the valid flag the command needs is clear. -/
  | notConfigured
  /-- Code 10: an operand that must be canonical is not. -/
  | nonCanonical
  deriving DecidableEq, Repr

/-- The fields of `STATUS` (10_state.md R31); no bit of the register is outside them. -/
structure Status where
  ctxValid : Bool
  tblValid : Bool
  crtValid : Bool
  sticky : Bool
  err : ErrCode
  deriving DecidableEq, Repr

/-- A word-addressed memory (20_memory.md R60): the words commands have written, as (index, word) pairs with strictly
rising indices. An index that is not listed holds a word nothing has written (notes/assumptions/5.md, 9.md). -/
structure Memory where
  cells : List (Nat × Nat)
  deriving DecidableEq, Repr

/-- What the host can do (00_scope.md R8): issue a command with its write datum, or assert reset
(70_reset_and_hazards.md R230). -/
inductive HostEvent where
  | command (cmd : CmdWord) (wdata : Nat)
  | reset
  deriving DecidableEq, Repr

/-- The response to a command (00_scope.md R8). -/
structure Response where
  err : ErrCode
  rdata : Nat
  deriving DecidableEq, Repr

/-- The state. The names are those of 10_state.md; every number is an unsigned integer (00_scope.md R10). -/
structure State where
  /-- The parameters of R5; with `W`, `KMAX`, `LOGNMAX`, `NBUF` they are the constant register `PARAMS` (R32). -/
  params : Params
  /-- `x[0..15]`, `WM` bits each (R21). -/
  x : Vector Nat 16
  /-- `t[0..KMAX-1]`, `W` bits each (R24). -/
  t : List Nat
  /-- `buf[0..NBUF-1]` (R27). -/
  bufs : List Memory
  /-- `ROM` (R29). -/
  rom : Memory
  /-- `STATUS` (R31). -/
  status : Status
  /-- `MOD` (R30, R33). -/
  modulus : Nat
  /-- `LOGN` (R30). -/
  logn : Nat
  /-- `PSI` (R30, R34). -/
  psi : Nat
  /-- `PSI_INV` (R30, R34). -/
  psiInv : Nat
  /-- `N_INV` (R30, R34). -/
  nInv : Nat
  /-- `K` (R30, R35). -/
  k : Nat
  /-- `BIGM` (R30, R35). -/
  bigM : Nat
  /-- `LIMB[0..KMAX-1]` (R30, R35). -/
  limb : List Nat
  /-- `CRTE[0..KMAX-1]` (R30, R35). -/
  crte : List Nat
  /-- What the host has yet to issue, first event first (00_scope.md R8, R19). -/
  pending : List HostEvent
  /-- The write-datum port during the command being executed (00_scope.md R8). -/
  wdata : Nat
  /-- The responses given so far, oldest first (00_scope.md R19). -/
  responses : List Response
  /-- The model's own: how many resets have happened; names the free values of unwritten words. -/
  resets : Nat
  deriving DecidableEq, Repr

/-- Reasons to stop with a fault: none. The spec stops the block nowhere: an error is the next state of
60_exceptions.md R210, and the block goes on (R214). -/
inductive Fault where
  deriving DecidableEq, Repr

/-- Reasons to refuse. -/
inductive Refusal where
  /-- Raised by an arm of `exec` whose instruction has no meaning yet; no arm does. Safe: the model stops. -/
  | notModelled (mnemonic : String)
  /-- Raised by `step` when the parameters break the constraints of 00_scope.md R5 (93_implementation_defined.md U15).
  Safe: the model stops; no run from reset reaches it. -/
  | notAnInstance
  deriving DecidableEq, Repr

/-- All flags clear, no error: `STATUS = 0x00` (10_state.md R39). -/
def Status.reset : Status :=
  { ctxValid := false, tblValid := false, crtValid := false, sticky := false, err := 0 }

/-- The state right after reset of the instance `P` (10_state.md R39): registers zero, `STATUS` zero, buffers and ROM
holding what nothing has written (free values), and no command issued yet. -/
def State.resetOf (P : Params) : State :=
  { params := P
    x := Vector.replicate 16 0
    t := List.replicate P.kmax 0
    bufs := List.replicate P.nbuf ⟨[]⟩
    rom := ⟨[]⟩
    status := Status.reset
    modulus := 0
    logn := 0
    psi := 0
    psiInv := 0
    nInv := 0
    k := 0
    bigM := 0
    limb := List.replicate P.kmax 0
    crte := List.replicate P.kmax 0
    pending := []
    wdata := 0
    responses := []
    resets := 0 }

/-- The reference instance right after reset (R5, R39). -/
def State.reset : State := State.resetOf Params.reference

end Sys2Proof.Machine
end

