-- ==== Sys2Proof/Machine/Arith.lean ====
section
/-! DEFINITION. The reference functions of 00_scope.md R13 to R17 and the butterfly network of 46_ntt_butterfly.md R160,
R165, on unsigned integers with exact arithmetic (R10). -/

namespace Sys2Proof.Machine

open Sys2Proof

/-- `modadd` (R13). -/
def modadd (a b m : Nat) : Nat := (a + b) % m

/-- `modsub` (R13); the spec requires `b < m`. -/
def modsub (a b m : Nat) : Nat := (a + m - b) % m

/-- `modneg` (R13); the spec requires `a < m`. -/
def modneg (a m : Nat) : Nat := (m - a) % m

/-- `modmul` (R13): the exact product, reduced. -/
def modmul (a b m : Nat) : Nat := (a * b) % m

/-- Square and multiply over the low `fuel` bits of the exponent. -/
def modpowAux (m : Nat) : Nat → Nat → Nat → Nat
  | 0, _, _ => 1 % m
  | fuel + 1, a, e =>
    if e = 0 then 1 % m
    else if e % 2 = 1 then (a * modpowAux m fuel (a * a % m) (e / 2)) % m
    else modpowAux m fuel (a * a % m) (e / 2)

/-- `modpow(a, e, m) = (a ^ e) mod m`, with `a^0 = 1` (R13). The method is not architectural (42_modular_multiplier.md
R132, U8); that it is this power is `Sys2Proof.Laws.modpow_eq`. -/
def modpow (a e m : Nat) : Nat := modpowAux m (e.log2 + 1) (a % m) e

/-- Extended Euclid on `(r0, r1)` with the coefficients of the first argument. -/
def egcdCoeff : Nat → Nat → Nat → Int → Int → Int
  | 0, _, _, c0, _ => c0
  | _ + 1, _, 0, c0, _ => c0
  | fuel + 1, r0, r1 + 1, c0, c1 => egcdCoeff fuel (r1 + 1) (r0 % (r1 + 1)) c1 (c0 - (r0 / (r1 + 1) : Nat) * c1)

/-- `modinv(a, m)` (R13): for `gcd(a, m) = 1` the unique `y < m` with `a * y mod m = 1`
(`Sys2Proof.Laws.modinv_spec`); the method is not architectural (U6). The spec gives it no value for other operands, and
no command uses one there. -/
def modinv (a m : Nat) : Nat := (egcdCoeff (m + 1) a m 1 0 % (m : Int)).toNat

/-- No divisor `e` of `p` with `d <= e` and `e * e <= p`, looking at `fuel` candidates. -/
def noDivisorFrom (p : Nat) : Nat → Nat → Bool
  | 0, _ => true
  | fuel + 1, d =>
    if p < d * d then true
    else if p % d = 0 then false
    else noDivisorFrom p fuel (d + 1)

/-- `is_prime` (R13), the exact predicate (92_eei_decisions.md D14, U2), by trial division;
`Sys2Proof.Laws.isPrime_iff` says that it is primality. -/
def isPrime (p : Nat) : Bool := decide (2 ≤ p) && noDivisorFrom p p 2

/-- `is_root(psi, n, p)` (R13). -/
def isRoot (psi n p : Nat) : Bool := decide (1 ≤ psi) && decide (psi < p) && modpow psi n p == p - 1

/-- The least root among `c, c + 1, ..`, looking at `fuel` candidates. -/
def leastRootFrom (n p : Nat) : Nat → Nat → Option Nat
  | 0, _ => none
  | fuel + 1, c => if isRoot c n p then some c else leastRootFrom n p fuel (c + 1)

/-- The reference choice: the least root in `[1, p)` (44_twiddle_rom.md R146), if there is one. -/
def leastRoot (n p : Nat) : Option Nat := leastRootFrom n p (p - 1) 1

/-- `PSI_SELECT(n, p)` (R146): the root the instance's table names, where it names one, else the least root. Every
admissible choice on the finitely many `(n, p)` of an instance is some table (DESIGN CHOICE,
notes/assumptions/4.md). -/
def psiSelect (P : Params) (n p : Nat) : Option Nat :=
  match P.psiTable.find? (fun e => e.n == n && e.p == p && isRoot e.psi n p) with
  | some e => some e.psi
  | none => leastRoot n p

/-- `brev(L, i)` (R13; 45_bit_reverse_unit.md R155): bit 0 of the index gets weight `2^(L-1)`, and the rest is reversed
in the bits below. -/
def brev : Nat → Nat → Nat
  | 0, _ => 0
  | l + 1, i => i % 2 * 2 ^ l + brev l (i / 2)

/-- The butterfly (R160). -/
def bflyMap (u v w m : Nat) : Nat × Nat :=
  (modadd u (modmul v w m) m, modsub u (modmul v w m) m)

/-- The direction of the network (R165). -/
inductive Dir where
  | fwd
  | inv
  deriving DecidableEq, Repr

/-- The words of a sequence after the bit-reversal permutation (R157): word `i` is the old word `brev(L, i)`. -/
def permuteWords (l : Nat) (c : List Nat) : List Nat :=
  (List.range (2 ^ l)).map fun i => c.getD (brev l i) 0

/-- The index of the twiddle in the ROM for exponent `e` (R165). -/
def twiddleIndex (dir : Dir) (n e : Nat) : Nat :=
  match dir with
  | .fwd => e
  | .inv => (2 * n - e) % (2 * n)

/-- Stage `s` of the network (R165) on the `n` words `c`: word `q` lies in the block that starts at `k`, at offset `r`;
it is the upper or lower output of that block's butterfly `j`. All butterflies of a stage read the words before the
stage, as their pairs are disjoint (R165, 00_scope.md R9). -/
def nttStage (rom : Nat → Nat) (dir : Dir) (n p s : Nat) (c : List Nat) : List Nat :=
  (List.range n).map fun q =>
    let len := 2 ^ s
    let half := len / 2
    let stride := n / len
    let k := q / len * len
    let r := q % len
    let j := r % half
    let w := rom (twiddleIndex dir n (2 * j * stride))
    let out := bflyMap (c.getD (k + j) 0) (c.getD (k + j + half) 0) w p
    if r < half then out.1 else out.2

/-- `ntt_core` (R165): the permutation, then stages `1 .. L`. -/
def nttCore (rom : Nat → Nat) (dir : Dir) (l p : Nat) (c : List Nat) : List Nat :=
  (List.range l).foldl (fun c s => nttStage rom dir (2 ^ l) p (s + 1) c) (permuteWords l c)

/-- The twist (R166). -/
def twistWords (rom : Nat → Nat) (n p : Nat) (c : List Nat) : List Nat :=
  (List.range n).map fun i => modmul (c.getD i 0) (rom i) p

/-- The scaling by `N_INV` (R168). -/
def scaleWords (nInv n p : Nat) (c : List Nat) : List Nat :=
  (List.range n).map fun i => modmul (c.getD i 0) nInv p

/-- The untwist (R168). -/
def untwistWords (rom : Nat → Nat) (n p : Nat) (c : List Nat) : List Nat :=
  (List.range n).map fun i => modmul (c.getD i 0) (rom ((2 * n - i) % (2 * n))) p

/-- What `NTTFWD` does to the words of its buffer (R166). -/
def forwardWords (rom : Nat → Nat) (l p : Nat) (c : List Nat) : List Nat :=
  nttCore rom .fwd l p (twistWords rom (2 ^ l) p c)

/-- What `NTTINV` does to the words of its buffer (R168). -/
def inverseWords (rom : Nat → Nat) (nInv l p : Nat) (c : List Nat) : List Nat :=
  untwistWords rom (2 ^ l) p (scaleWords nInv (2 ^ l) p (nttCore rom .inv l p c))

/-- The sum of `f 0, .., f (n-1)`. -/
def sumBelow (f : Nat → Nat) : Nat → Nat
  | 0 => 0
  | n + 1 => sumBelow f n + f n

/-- `ntt_fwd(a, n, p, psi)` (R16), the reference formula. -/
def nttFwd (a : List Nat) (n p psi : Nat) : List Nat :=
  (List.range n).map fun j => sumBelow (fun i => a.getD i 0 * psi ^ (i * (2 * j + 1))) n % p

/-- `ntt_inv(A, n, p, psi)` (R16), the reference formula, with `psi^(-e) = modinv(psi, p)^e`. -/
def nttInv (a : List Nat) (n p psi : Nat) : List Nat :=
  (List.range n).map fun i =>
    (modinv (n % p) p * modinv psi p ^ i * sumBelow (fun j => a.getD j 0 * modinv psi p ^ (2 * i * j)) n) % p

/-- `d[k]` of R15: coefficient `k` of the plain product. -/
def convolveAt (a b : List Int) (n k : Nat) : Int :=
  (List.range n).foldl (fun acc i => if i ≤ k ∧ k - i < n then acc + a.getD i 0 * b.getD (k - i) 0 else acc) 0

/-- `negacyclic_mul(a, b, n, m)` (R15), `m = 0` meaning no reduction. -/
def negacyclicMul (a b : List Int) (n m : Nat) : List Int :=
  (List.range n).map fun k =>
    (convolveAt a b n k - (if k + n ≤ 2 * n - 2 then convolveAt a b n (k + n) else 0)) % (m : Int)

/-- The product of a list of limbs (R17). -/
def product (ms : List Nat) : Nat := ms.foldl (· * ·) 1

/-- `crt_e(i)` for the limb `mi` of the product `M` (R17). -/
def crtE (bigM mi : Nat) : Nat := (bigM / mi * modinv (bigM / mi % mi) mi) % bigM

/-- `compose` (R17) of the entries `ts` with the coefficients `es`. -/
def compose (ts es : List Nat) (bigM : Nat) : Nat :=
  (List.zipWith (· * ·) ts es).foldl (· + ·) 0 % bigM

/-- `decompose` (R17). -/
def decompose (v : Nat) (ms : List Nat) : List Nat := ms.map fun m => v % m

/-- `rdiv(v, D)` (R17): nearest integer, ties up. -/
def rdiv (v d : Nat) : Nat := (v + d / 2) / d

/-- The limbs are pairwise coprime (47_crt_reconstructor.md R177). -/
def pairwiseCoprime : List Nat → Bool
  | [] => true
  | m :: ms => ms.all (fun q => Nat.gcd m q == 1) && pairwiseCoprime ms

end Sys2Proof.Machine
end

