-- ==== Sys2Proof/Machine/Flags.lean ====
section
/-! DEFINITION. `STATUS` as a register (10_state.md R31) and the two updates every command ends with
(60_exceptions.md R210, R211). No command computes another flag (10_state.md R36). -/

namespace Sys2Proof.Machine

open Sys2Proof

/-- The code of an error (60_exceptions.md R201). -/
def Err.code : Err → ErrCode
  | .invalidModulus => 1
  | .noPrimitiveRoot => 2
  | .lengthMismatch => 3
  | .indexOutOfRange => 4
  | .notInvertible => 5
  | .incompatibleRings => 6
  | .modulusMismatch => 7
  | .illegalCommand => 8
  | .notConfigured => 9
  | .nonCanonical => 10

/-- `STATUS` as the 8-bit register `GETC` reads: `ERR` in bits 7:4, then `STICKY`, `CRT_VALID`, `TBL_VALID`,
`CTX_VALID` down to bit 0 (R31). -/
def Status.word (st : Status) : BitVec 8 :=
  st.err ++ (BitVec.ofBool st.sticky ++ (BitVec.ofBool st.crtValid ++
    (BitVec.ofBool st.tblValid ++ BitVec.ofBool st.ctxValid)))

/-- `STATUS` after a command that ends in error `e`: `ERR` is its code, `STICKY` is set, the valid flags stay (R210). -/
def Status.failed (st : Status) (e : Err) : Status := { st with err := e.code, sticky := true }

/-- `STATUS` after a command that succeeds: `ERR` is 0, the rest stays (R211). -/
def Status.succeeded (st : Status) : Status := { st with err := 0 }

end Sys2Proof.Machine
end

