-- ==== Sys2Proof/Machine/Ops.lean ====
section
/-! DEFINITION. The named operations over memory, registers and control registers, and the one way a command ends:
in error (60_exceptions.md R210) or complete (R211). -/

namespace Sys2Proof.Machine

open Sys2Proof

/-- What a step answers. -/
abbrev Out := Host.Outcome State Fault Refusal

/-- Strictly rising indices. -/
def risingCells : List (Nat × Nat) → Bool
  | [] => true
  | [_] => true
  | a :: b :: rest => decide (a.1 < b.1) && risingCells (b :: rest)

/-- The canonical form of a memory: strictly rising indices, so that no index is listed twice. An unlisted index holds no
written word, so no entry can equal what it reads as. -/
def Memory.wf (m : Memory) : Bool := risingCells m.cells

/-- The word a command has written at `i`, if one has. -/
def Memory.written (m : Memory) (i : Nat) : Option Nat := m.cells.lookup i

/-- Put `v` at index `i`, keeping the indices rising. -/
def insertCell : List (Nat × Nat) → Nat → Nat → List (Nat × Nat)
  | [], i, v => [(i, v)]
  | (j, u) :: rest, i, v =>
    if i < j then (i, v) :: (j, u) :: rest
    else if i = j then (i, v) :: rest
    else (j, u) :: insertCell rest i v

/-- `MemWrite` of one word (00_scope.md R11). -/
def Memory.write (m : Memory) (i v : Nat) : Memory := ⟨insertCell m.cells i v⟩

/-- `MemWrite` of the words `ws` at indices `0 ..`, all at once; words beyond them stay. -/
def Memory.writePrefix (m : Memory) (ws : List Nat) : Memory :=
  ⟨(List.range ws.length).zip ws ++ m.cells.filter (fun c => decide (ws.length ≤ c.1))⟩

/-- Every written word replaced, each by a function of its index and old value. -/
def Memory.mapWords (m : Memory) (f : Nat → Nat → Nat) : Memory := ⟨m.cells.map fun c => (c.1, f c.1 c.2)⟩

/-- A list of registers with its first entries overwritten; the later ones stay. -/
def overwrite (new old : List Nat) : List Nat := new ++ old.drop new.length

/-- `n = 2^LOGN` (00_scope.md R6). -/
def State.n (s : State) : Nat := 2 ^ s.logn

/-- `x[r]` (10_state.md R21). -/
def State.getX (s : State) (r : RegNum) : Nat := s.x[r.toNat]'(r.isLt)

/-- `x[r] <- v`; no register is hardwired (R21). -/
def State.setX (s : State) (r : RegNum) (v : Nat) : State := { s with x := s.x.set r.toNat v r.isLt }

/-- A value on a `WM`-bit register or port (00_scope.md R10, R11): itself where it fits, which is always so on the
reference instance. Where it does not, the spec states no value and the result is a free value
(notes/assumptions/16.md). -/
def State.fit (s : State) (v : Nat) : Nat :=
  if v < 2 ^ s.params.wm then v else Config.freeNarrow s.params.wm v % 2 ^ s.params.wm

/-- `t[i]` (R24). -/
def State.getT (s : State) (i : Nat) : Nat := s.t.getD i 0

/-- `t[i] <- v`. -/
def State.setT (s : State) (i v : Nat) : State := { s with t := s.t.set i v }

/-- `t[0 ..] <- vs`, all at once; later entries stay. -/
def State.setTuple (s : State) (vs : List Nat) : State := { s with t := overwrite vs s.t }

/-- `CSR.LIMB[i]` (R35). -/
def State.getLimb (s : State) (i : Nat) : Nat := s.limb.getD i 0

/-- `CSR.CRTE[i]` (R35). -/
def State.getCrte (s : State) (i : Nat) : Nat := s.crte.getD i 0

/-- `MemRead(BUF b, i)` (00_scope.md R11): the word written there, or the free value it has held since reset
(10_state.md R28). -/
def State.bufWord (s : State) (b : BufNum) (i : Nat) : Nat :=
  ((s.bufs.getD b.toNat ⟨[]⟩).written i).getD (Config.freeBufWord s.resets b.toNat i % 2 ^ s.params.w)

/-- The reachable words `0 .. n-1` of a buffer (10_state.md R27). -/
def State.bufWords (s : State) (b : BufNum) : List Nat := (List.range s.n).map (s.bufWord b)

/-- `MemWrite(BUF b, i, v)`. -/
def State.setBufWord (s : State) (b : BufNum) (i v : Nat) : State :=
  { s with bufs := s.bufs.set b.toNat ((s.bufs.getD b.toNat ⟨[]⟩).write i v) }

/-- `MemWrite` of words `0 ..` of buffer `b`, all at once; later words stay. -/
def State.setBufWords (s : State) (b : BufNum) (ws : List Nat) : State :=
  { s with bufs := s.bufs.set b.toNat ((s.bufs.getD b.toNat ⟨[]⟩).writePrefix ws) }

/-- `MemRead(ROM, j)`: the word `TBUILD` wrote, or the free value it has held since reset (10_state.md R29). -/
def State.romWord (s : State) (j : Nat) : Nat :=
  (s.rom.written j).getD (Config.freeRomWord s.resets j % 2 ^ s.params.w)

/-- The ring context of a successful `SETCTX`: `TBL_VALID` stays only where the context is the one in force
(40_context_and_data.md R105, 20_memory.md R71). -/
def State.setContext (s : State) (m logn : Nat) : State :=
  { s with
    modulus := m
    logn := logn
    status := { s.status with
      ctxValid := true
      tblValid := s.status.tblValid && (s.status.ctxValid && (logn == s.logn && m == s.modulus)) } }

/-- The table of a successful `TBUILD`: ROM words `0 ..`, `PSI`, `PSI_INV`, `N_INV`, `TBL_VALID`
(44_twiddle_rom.md R145). -/
def State.setTable (s : State) (psi psiInv nInv : Nat) (ws : List Nat) : State :=
  { s with
    rom := s.rom.writePrefix ws
    psi := psi
    psiInv := psiInv
    nInv := nInv
    status := { s.status with tblValid := true } }

/-- A limb of a successful `SETLIMB`, which clears `CRT_VALID` (47_crt_reconstructor.md R176). -/
def State.setLimb (s : State) (i v : Nat) : State :=
  { s with limb := s.limb.set i v, status := { s.status with crtValid := false } }

/-- The coefficients of a successful `CRTBUILD` (R177); `CRTE[i]` for later `i` stays. -/
def State.setCrt (s : State) (k bigM : Nat) (es : List Nat) : State :=
  { s with
    k := k
    bigM := bigM
    crte := overwrite es s.crte
    status := { s.status with crtValid := true } }

/-- `STATUS.STICKY <- 0` (40_context_and_data.md R110). -/
def State.clearSticky (s : State) : State := { s with status := { s.status with sticky := false } }

/-- The engine takes the command with datum `wdata` off the host's list; the port carries `WM` bits (00_scope.md R8). -/
def State.issue (s : State) (wdata : Nat) (rest : List HostEvent) : State :=
  { s with wdata := wdata % 2 ^ s.params.wm, pending := rest }

/-- The state after a command that ends in error `e`: that of before the command, but for `STATUS.ERR`,
`STATUS.STICKY` and the response `(code, 0)` (60_exceptions.md R210). -/
def State.raised (s : State) (e : Err) : State :=
  { s with status := s.status.failed e, responses := s.responses ++ [⟨e.code, 0⟩] }

/-- The completion update of a command that succeeds, and its response `(0, rdata)` (R211). -/
def State.completed (s : State) (rdata : Nat) : State :=
  { s with status := s.status.succeeded, responses := s.responses ++ [⟨0, rdata⟩] }

/-- `raise e` (00_scope.md R11): taking an error. It is the next state of the command; there is no handler, and so no
return from it (60_exceptions.md R210, R214). -/
def raise (s : State) (e : Err) : Out := .next (s.raised e)

/-- The end of a command that succeeds, responding `rdata`. -/
def finish (s : State) (rdata : Nat) : Out := .next (s.completed rdata)

/-- The buffers after a reset event: every word is unspecified (10_state.md R39), so a word that held a written value
holds a free value that may depend on it (R28: reset does not write the buffers), and an unwritten word the free value of
the new reset (notes/assumptions/7.md). -/
def State.resetBufs (s : State) : List Memory :=
  (List.range s.params.nbuf).map fun b =>
    (s.bufs.getD b ⟨[]⟩).mapWords fun i v => Config.freeResetWord s.resets b i v % 2 ^ s.params.w

/-- The reset event (70_reset_and_hazards.md R230): the state of 10_state.md R39 for the same instance, with the rest of
the host's list and the responses already given. -/
def State.hostReset (s : State) (rest : List HostEvent) : State :=
  { State.resetOf s.params with
    bufs := s.resetBufs
    pending := rest
    responses := s.responses
    resets := s.resets + 1 }

end Sys2Proof.Machine
end

