-- ==== Sys2Proof/Machine/Operands.lean ====
section
/-! DEFINITION. The operand checks commands share, in the order of 60_exceptions.md R205 (configuration, bounds,
canonicality), and the control registers as `GETC` numbers them (10_state.md R30). -/

namespace Sys2Proof.Machine

open Sys2Proof

/-- The command needs a ring context (R201, code 9). -/
@[inline] def needContext (s : State) (body : Out) : Out :=
  if s.status.ctxValid then body else raise s .notConfigured

/-- The command needs a valid twiddle table. -/
@[inline] def needTable (s : State) (body : Out) : Out :=
  if s.status.tblValid then body else raise s .notConfigured

/-- The command needs valid CRT state. -/
@[inline] def needCrt (s : State) (body : Out) : Out :=
  if s.status.crtValid then body else raise s .notConfigured

/-- A bound: `IndexOutOfRange` where it fails (20_memory.md R63). -/
@[inline] def needBound (s : State) (ok : Bool) (body : Out) : Out :=
  if ok then body else raise s .indexOutOfRange

/-- A canonicality check: `NonCanonical` where it fails (00_scope.md R12). -/
@[inline] def needCanonical (s : State) (ok : Bool) (body : Out) : Out :=
  if ok then body else raise s .nonCanonical

/-- The buffer exists: `b < NBUF` (30_encoding.md R83). -/
def State.hasBuf (s : State) (b : BufNum) : Bool := decide (b.toNat < s.params.nbuf)

/-- `x[r]` is canonical modulo `MOD`. -/
def State.canonX (s : State) (r : RegNum) : Bool := decide (s.getX r < s.modulus)

/-- All `n` reachable words of the buffer are canonical modulo `MOD` (20_memory.md R72). -/
def State.canonBuf (s : State) (b : BufNum) : Bool := (s.bufWords b).all fun v => decide (v < s.modulus)

/-- The limbs in use, `LIMB[0 .. K-1]`. -/
def State.limbs (s : State) : List Nat := (List.range s.k).map s.getLimb

/-- The tuple entries in use, `t[0 .. K-1]`. -/
def State.tuple (s : State) : List Nat := (List.range s.k).map s.getT

/-- The coefficients in use, `CRTE[0 .. K-1]`. -/
def State.crtes (s : State) : List Nat := (List.range s.k).map s.getCrte

/-- Every tuple entry in use is canonical for its limb (10_state.md R25). -/
def State.canonTuple (s : State) : Bool :=
  (List.range s.k).all fun i => decide (s.getT i < s.getLimb i)

/-- The value the tuple represents (47_crt_reconstructor.md R179). -/
def State.composed (s : State) : Nat := compose s.tuple s.crtes s.bigM

/-- `PARAMS` as a register (10_state.md R32). -/
def paramsWord (P : Params) : Nat := P.w + P.kmax * 2 ^ 8 + P.lognmax * 2 ^ 12 + P.nbuf * 2 ^ 17

/-- The control register with a number, zero-extended; none where the number is unassigned (10_state.md R30). -/
def State.csr (s : State) (num : Nat) : Option Nat :=
  if num = 0x00 then some s.status.word.toNat
  else if num = 0x01 then some s.modulus
  else if num = 0x02 then some s.logn
  else if num = 0x03 then some s.psi
  else if num = 0x04 then some s.psiInv
  else if num = 0x05 then some s.nInv
  else if num = 0x06 then some s.k
  else if num = 0x07 then some s.bigM
  else if num = 0x08 then some (paramsWord s.params)
  else if 0x10 ≤ num ∧ num < 0x10 + s.params.kmax then some (s.getLimb (num - 0x10))
  else if 0x20 ≤ num ∧ num < 0x20 + s.params.kmax then some (s.getCrte (num - 0x20))
  else none

/-- The shape of a scalar command with one residue operand (41_modular_adder.md R123). -/
def residueOp1 (f : Nat → Nat → Nat) (ra rb : RegNum) (s : State) : Out :=
  needContext s <|
  needCanonical s (s.canonX rb) <|
  finish (s.setX ra (f (s.getX rb) s.modulus)) 0

/-- The shape of a scalar command with two residue operands (41_modular_adder.md R121, R122). -/
def residueOp2 (f : Nat → Nat → Nat → Nat) (ra rb rc : RegNum) (s : State) : Out :=
  needContext s <|
  needCanonical s (s.canonX rb && s.canonX rc) <|
  finish (s.setX ra (f (s.getX rb) (s.getX rc) s.modulus)) 0

end Sys2Proof.Machine
end

