-- ==== Sys2Proof/Machine/Adder.lean ====
section
/-! DEFINITION. The modular_adder unit: `ADD`, `SUB`, `NEG` (41_modular_adder.md R121 to R123). -/

namespace Sys2Proof.Machine

open Sys2Proof

/-- `ADD xd, xa, xb` (R121). -/
def execAdd (ra rb rc : RegNum) (s : State) : Out := residueOp2 modadd ra rb rc s

/-- `SUB xd, xa, xb` (R122): `rb` minus `rc`. -/
def execSub (ra rb rc : RegNum) (s : State) : Out := residueOp2 modsub ra rb rc s

/-- `NEG xd, xa` (R123). -/
def execNeg (ra rb : RegNum) (s : State) : Out := residueOp1 modneg ra rb s

end Sys2Proof.Machine
end

