-- ==== Sys2Proof/Machine/BitReverse.lean ====
section
/-! DEFINITION. The bit_reverse_unit: `BREV`, `BRPERM` (45_bit_reverse_unit.md R156, R157). -/

namespace Sys2Proof.Machine

open Sys2Proof

/-- `BREV xd, xs` (R156): the source is an index, compared with `n`, not with `MOD`. -/
def execBrev (ra rb : RegNum) (s : State) : Out :=
  needContext s <|
  needBound s (decide (s.getX rb < s.n)) <|
  finish (s.setX ra (s.fit (brev s.logn (s.getX rb)))) 0

/-- `BRPERM bk` (R157): words are moved as stored, with no canonicality check. -/
def execBrperm (ra : BufNum) (s : State) : Out :=
  needContext s <|
  needBound s (s.hasBuf ra) <|
  finish (s.setBufWords ra (permuteWords s.logn (s.bufWords ra))) 0

end Sys2Proof.Machine
end

