-- ==== Sys2Proof/Machine/Butterfly.lean ====
section
/-! DEFINITION. The ntt_butterfly unit and the transform sequencer: `BFLY`, `NTTFWD`, `NTTINV`
(46_ntt_butterfly.md R161, R166, R168). -/

namespace Sys2Proof.Machine

open Sys2Proof

/-- `BFLY xu, xv, xw` (R161): both outputs are written at once. With `ra = rb` it is an illegal command, which decoding
already says (30_encoding.md R82). -/
def execBfly (ra rb rc : RegNum) (s : State) : Out :=
  if ra = rb then raise s .illegalCommand
  else
    needContext s <|
    needCanonical s (s.canonX ra && s.canonX rb && s.canonX rc) <|
    finish
      ((s.setX ra (bflyMap (s.getX ra) (s.getX rb) (s.getX rc) s.modulus).1).setX rb
        (bflyMap (s.getX ra) (s.getX rb) (s.getX rc) s.modulus).2) 0

/-- `NTTFWD bk` (R166). -/
def execNttfwd (ra : BufNum) (s : State) : Out :=
  needTable s <|
  needBound s (s.hasBuf ra) <|
  needCanonical s (s.canonBuf ra) <|
  finish (s.setBufWords ra (forwardWords s.romWord s.logn s.modulus (s.bufWords ra))) 0

/-- `NTTINV bk` (R168). -/
def execNttinv (ra : BufNum) (s : State) : Out :=
  needTable s <|
  needBound s (s.hasBuf ra) <|
  needCanonical s (s.canonBuf ra) <|
  finish (s.setBufWords ra (inverseWords s.romWord s.nInv s.logn s.modulus (s.bufWords ra))) 0

end Sys2Proof.Machine
end

