-- ==== Sys2Proof/Machine/ContextData.lean ====
section
/-! DEFINITION. Host interface, ring context and data movement: `NOP`, `SETR`, `GETR`, `MOV`, `GETC`, `SETCTX`, `LDC`,
`STC`, `SETT`, `GETT`, `CLRERR` (40_context_and_data.md R100 to R110). -/

namespace Sys2Proof.Machine

open Sys2Proof

/-- `NOP` (R100). -/
def execNop (s : State) : Out := finish s 0

/-- `SETR xd, value` (R101): any `WM`-bit value is accepted. -/
def execSetr (ra : RegNum) (s : State) : Out := finish (s.setX ra s.wdata) 0

/-- `GETR xs` (R102). -/
def execGetr (ra : RegNum) (s : State) : Out := finish s (s.getX ra)

/-- `MOV xd, xs` (R103). -/
def execMov (ra rb : RegNum) (s : State) : Out := finish (s.setX ra (s.getX rb)) 0

/-- `GETC csr` (R104): the value before this command's own completion update, zero-extended to `WM` bits. -/
def execGetc (imm : Imm16) (s : State) : Out :=
  match s.csr imm.toNat with
  | some v => finish s (s.fit v)
  | none => raise s .indexOutOfRange

/-- `SETCTX xs, logn` (R105). -/
def execSetctx (ra : RegNum) (imm : Imm16) (s : State) : Out :=
  if s.params.lognmax < imm.toNat then raise s .invalidModulus
  else if s.getX ra < 2 ∨ 2 ^ s.params.w ≤ s.getX ra then raise s .invalidModulus
  else finish (s.setContext (s.getX ra) imm.toNat) 0

/-- `LDC xd, bk, i` (R106): the word as stored, canonical or not. -/
def execLdc (ra : RegNum) (rb : BufNum) (imm : Imm16) (s : State) : Out :=
  needContext s <|
  needBound s (s.hasBuf rb && decide (imm.toNat < s.n)) <|
  finish (s.setX ra (s.bufWord rb imm.toNat)) 0

/-- `STC xs, bk, i` (R107). -/
def execStc (ra : RegNum) (rb : BufNum) (imm : Imm16) (s : State) : Out :=
  needContext s <|
  needBound s (s.hasBuf rb && decide (imm.toNat < s.n)) <|
  needCanonical s (s.canonX ra) <|
  finish (s.setBufWord rb imm.toNat (s.getX ra)) 0

/-- `SETT xs, i` (R108): the value is compared with `2^W`, not with the limb. -/
def execSett (ra : RegNum) (imm : Imm16) (s : State) : Out :=
  needBound s (decide (imm.toNat < s.params.kmax)) <|
  needCanonical s (decide (s.getX ra < 2 ^ s.params.w)) <|
  finish (s.setT imm.toNat (s.getX ra)) 0

/-- `GETT xd, i` (R109). -/
def execGett (ra : RegNum) (imm : Imm16) (s : State) : Out :=
  needBound s (decide (imm.toNat < s.params.kmax)) <|
  finish (s.setX ra (s.getT imm.toNat)) 0

/-- `CLRERR` (R110). -/
def execClrerr (s : State) : Out := finish s.clearSticky 0

end Sys2Proof.Machine
end

