-- ==== Sys2Proof/Machine/Crt.lean ====
section
/-! DEFINITION. The crt_reconstructor unit: `SETLIMB`, `CRTBUILD`, `COMPOSE` (47_crt_reconstructor.md R176, R177, R179).
None of them reads the ring context. -/

namespace Sys2Proof.Machine

open Sys2Proof

/-- `SETLIMB xs, i` (R176): clears `CRT_VALID` on every success. -/
def execSetlimb (ra : RegNum) (imm : Imm16) (s : State) : Out :=
  needBound s (decide (imm.toNat < s.params.kmax)) <|
  if s.getX ra < 2 ∨ 2 ^ s.params.w ≤ s.getX ra then raise s .invalidModulus
  else finish (s.setLimb imm.toNat (s.getX ra)) 0

/-- The limbs `LIMB[0 .. k-1]` that `CRTBUILD k` looks at. -/
def State.firstLimbs (s : State) (k : Nat) : List Nat := (List.range k).map s.getLimb

/-- `CRTBUILD k` (R177). -/
def execCrtbuild (imm : Imm16) (s : State) : Out :=
  if imm.toNat = 0 ∨ s.params.kmax < imm.toNat then raise s .invalidModulus
  else if (s.firstLimbs imm.toNat).any (fun m => decide (m < 2)) then raise s .invalidModulus
  else if pairwiseCoprime (s.firstLimbs imm.toNat) = false then raise s .invalidModulus
  else
    finish (s.setCrt imm.toNat (product (s.firstLimbs imm.toNat))
      ((s.firstLimbs imm.toNat).map (crtE (product (s.firstLimbs imm.toNat))))) 0

/-- `COMPOSE xd` (R179): the exact sum, then one reduction. -/
def execCompose (ra : RegNum) (s : State) : Out :=
  needCrt s <|
  needCanonical s s.canonTuple <|
  finish (s.setX ra s.composed) 0

end Sys2Proof.Machine
end

