-- ==== Sys2Proof/Machine/InverseEngine.lean ====
section
/-! DEFINITION. The modular_inverse_engine unit: `INV` (43_modular_inverse_engine.md R141). -/

namespace Sys2Proof.Machine

open Sys2Proof

/-- `INV xd, xa` (R141). -/
def execInv (ra rb : RegNum) (s : State) : Out :=
  needContext s <|
  needCanonical s (s.canonX rb) <|
  if Nat.gcd (s.getX rb) s.modulus ≠ 1 then raise s .notInvertible
  else finish (s.setX ra (modinv (s.getX rb) s.modulus)) 0

end Sys2Proof.Machine
end

