-- ==== Sys2Proof/Machine/Multiplier.lean ====
section
/-! DEFINITION. The modular_multiplier unit: `MUL`, `POW`, `PWMUL` (42_modular_multiplier.md R131, R132, R134). -/

namespace Sys2Proof.Machine

open Sys2Proof

/-- `MUL xd, xa, xb` (R131). -/
def execMul (ra rb rc : RegNum) (s : State) : Out := residueOp2 modmul ra rb rc s

/-- `POW xd, xa, xe` (R132): only the base is checked; the exponent is the whole register. -/
def execPow (ra rb rc : RegNum) (s : State) : Out :=
  needContext s <|
  needCanonical s (s.canonX rb) <|
  finish (s.setX ra (modpow (s.getX rb) (s.getX rc) s.modulus)) 0

/-- `PWMUL bd, bs` (R134); `bd = bs` squares every word. -/
def execPwmul (ra rb : BufNum) (s : State) : Out :=
  needContext s <|
  needBound s (s.hasBuf ra && s.hasBuf rb) <|
  needCanonical s (s.canonBuf ra && s.canonBuf rb) <|
  finish (s.setBufWords ra
    ((List.range s.n).map fun i => modmul (s.bufWord ra i) (s.bufWord rb i) s.modulus)) 0

end Sys2Proof.Machine
end

