-- ==== Sys2Proof/Machine/Rns.lean ====
section
/-! DEFINITION. The rns_composer unit: `DECOMP`, `RESCALE` (48_rns_composer.md R186, R188). -/

namespace Sys2Proof.Machine

open Sys2Proof

/-- `DECOMP xs` (R186): every `WM`-bit value is accepted. -/
def execDecomp (ra : RegNum) (s : State) : Out :=
  needCrt s <|
  finish (s.setTuple (decompose (s.getX ra) s.limbs)) 0

/-- Limb `m` is kept by a rescaling to `target`: `target != 0` and `m` divides `target` (R188). -/
def keptLimb (target m : Nat) : Bool := target != 0 && target % m == 0

/-- The product of the kept limbs (R188). -/
def keptProduct (target : Nat) (ms : List Nat) : Nat := product (ms.filter (keptLimb target))

/-- The rescaled representative (R188): divide by the removed limbs' product with rounding, reduce modulo `target`. -/
def rescaled (v bigM target : Nat) : Nat := rdiv v (bigM / target) % target

/-- The tuple after a rescaling: kept limbs get their residue, removed limbs 0 (R188). -/
def rescaledTuple (v2 target : Nat) (ms : List Nat) : List Nat :=
  ms.map fun m => if keptLimb target m then v2 % m else 0

/-- `RESCALE xd, xto` (R188). The kept set is empty or its product is not `to`: `ModulusMismatch`. -/
def execRescale (ra rb : RegNum) (s : State) : Out :=
  needCrt s <|
  needCanonical s s.canonTuple <|
  if s.limbs.all (fun m => !keptLimb (s.getX rb) m) ∨ keptProduct (s.getX rb) s.limbs ≠ s.getX rb then
    raise s .modulusMismatch
  else
    finish
      ((s.setX ra (rescaled s.composed s.bigM (s.getX rb))).setTuple
        (rescaledTuple (rescaled s.composed s.bigM (s.getX rb)) (s.getX rb) s.limbs)) 0

end Sys2Proof.Machine
end

