-- ==== Sys2Proof/Machine/TwiddleRom.lean ====
section
/-! DEFINITION. The twiddle_rom unit: `TBUILD`, `TWD` (44_twiddle_rom.md R145, R148). -/

namespace Sys2Proof.Machine

open Sys2Proof

/-- The powers `psi^0 .. psi^(len-1)` modulo `p` (R145). -/
def powersOf (psi len p : Nat) : List Nat := (List.range len).map fun j => modpow psi j p

/-- `TBUILD` (R145). The branch without a root is kept; R149 says that it is never taken. -/
def execTbuild (s : State) : Out :=
  needContext s <|
  if isPrime s.modulus = false then raise s .invalidModulus
  else if (s.modulus - 1) % (2 * s.n) ≠ 0 then raise s .invalidModulus
  else
    match psiSelect s.params s.n s.modulus with
    | none => raise s .noPrimitiveRoot
    | some psi =>
      finish (s.setTable psi (modinv psi s.modulus) (modinv (s.n % s.modulus) s.modulus)
        (powersOf psi (2 * s.n) s.modulus)) 0

/-- `TWD xd, j` (R148). -/
def execTwd (ra : RegNum) (imm : Imm16) (s : State) : Out :=
  needTable s <|
  needBound s (decide (imm.toNat < 2 * s.n)) <|
  finish (s.setX ra (s.romWord imm.toNat)) 0

end Sys2Proof.Machine
end

