-- ==== Sys2Proof/Machine/Dispatch.lean ====
section
/-! DEFINITION. One arm per command (30_encoding.md R84), each one call of its meaning. -/

namespace Sys2Proof.Machine
open Sys2Proof

def exec (i : Instr) (s : State) : Host.Outcome State Fault Refusal :=
  match i with
  | .nop => Sys2Proof.Machine.execNop s
  | .setr ra => Sys2Proof.Machine.execSetr ra s
  | .getr ra => Sys2Proof.Machine.execGetr ra s
  | .mov ra rb => Sys2Proof.Machine.execMov ra rb s
  | .getc imm => Sys2Proof.Machine.execGetc imm s
  | .setctx ra imm => Sys2Proof.Machine.execSetctx ra imm s
  | .ldc ra rb imm => Sys2Proof.Machine.execLdc ra rb imm s
  | .stc ra rb imm => Sys2Proof.Machine.execStc ra rb imm s
  | .sett ra imm => Sys2Proof.Machine.execSett ra imm s
  | .gett ra imm => Sys2Proof.Machine.execGett ra imm s
  | .clrerr => Sys2Proof.Machine.execClrerr s
  | .add ra rb rc => Sys2Proof.Machine.execAdd ra rb rc s
  | .sub ra rb rc => Sys2Proof.Machine.execSub ra rb rc s
  | .neg ra rb => Sys2Proof.Machine.execNeg ra rb s
  | .mul ra rb rc => Sys2Proof.Machine.execMul ra rb rc s
  | .pow ra rb rc => Sys2Proof.Machine.execPow ra rb rc s
  | .pwmul ra rb => Sys2Proof.Machine.execPwmul ra rb s
  | .inv ra rb => Sys2Proof.Machine.execInv ra rb s
  | .tbuild => Sys2Proof.Machine.execTbuild s
  | .twd ra imm => Sys2Proof.Machine.execTwd ra imm s
  | .brev ra rb => Sys2Proof.Machine.execBrev ra rb s
  | .brperm ra => Sys2Proof.Machine.execBrperm ra s
  | .bfly ra rb rc => Sys2Proof.Machine.execBfly ra rb rc s
  | .nttfwd ra => Sys2Proof.Machine.execNttfwd ra s
  | .nttinv ra => Sys2Proof.Machine.execNttinv ra s
  | .setlimb ra imm => Sys2Proof.Machine.execSetlimb ra imm s
  | .crtbuild imm => Sys2Proof.Machine.execCrtbuild imm s
  | .compose ra => Sys2Proof.Machine.execCompose ra s
  | .decomp ra => Sys2Proof.Machine.execDecomp ra s
  | .rescale ra rb => Sys2Proof.Machine.execRescale ra rb s

end Sys2Proof.Machine
end

