-- ==== Sys2Proof/Machine/Step.lean ====
section
/-! DEFINITION. One step of the engine (00_scope.md R7, R19): the next thing the host does is taken off its list and
carried out. -/

namespace Sys2Proof.Machine

open Sys2Proof

/-- One step. A command is decoded and executed atomically, an illegal word is answered with `IllegalCommand`
(30_encoding.md R82), a reset replaces the state (70_reset_and_hazards.md R230). With nothing pending the block idles
(notes/assumptions/2.md). Parameters that are no instance of the spec are refused (U15, notes/assumptions/3.md). -/
def step (s : State) : Host.Outcome State Fault Refusal :=
  if s.params.legal then
    match s.pending with
    | [] => .next s
    | .reset :: rest => .next (s.hostReset rest)
    | .command cmd wdata :: rest =>
      match decode cmd with
      | .ok i => exec i (s.issue wdata rest)
      | .error _ => raise (s.issue wdata rest) .illegalCommand
  else .refused .notAnInstance

/-- The state in which the host's next act is to issue the command whose word is given by the `nbits` bits `w`, the bits
above them zero, with datum 0. Only the host's list changes (notes/assumptions/1.md). -/
def State.withFetchWord (s : State) (nbits w : Nat) : State :=
  { s with pending := .command (BitVec.ofNat 32 (w % 2 ^ nbits)) 0 :: s.pending }

end Sys2Proof.Machine
end

