-- ==== Sys2Proof/Safety.lean ====
section
/-! DEFINITION. What the spec promises of every state of the block, in the terms statements use: widths and counts
(10_state.md R20 to R30), canonical memories, and what a set valid flag means (10_state.md R29, R31;
44_twiddle_rom.md R147; 47_crt_reconstructor.md R178). -/

namespace Sys2Proof.Machine

open Sys2Proof

/-- The block holds exactly the registers and buffers of its instance (R20, R24, R27, R30). -/
structure State.shapesOk (s : State) : Prop where
  t : s.t.length = s.params.kmax
  limb : s.limb.length = s.params.kmax
  crte : s.crte.length = s.params.kmax
  bufs : s.bufs.length = s.params.nbuf

/-- Every register, control register and port holds a value of its width (00_scope.md R10; 10_state.md R21, R24,
R30). -/
structure State.widthsOk (s : State) : Prop where
  x : ∀ r, s.getX r < 2 ^ s.params.wm
  t : ∀ i, s.getT i < 2 ^ s.params.w
  modulus : s.modulus < 2 ^ s.params.w
  logn : s.logn ≤ s.params.lognmax
  psi : s.psi < 2 ^ s.params.w
  psiInv : s.psiInv < 2 ^ s.params.w
  nInv : s.nInv < 2 ^ s.params.w
  k : s.k ≤ s.params.kmax
  bigM : s.bigM < 2 ^ s.params.wm
  limb : ∀ i, s.getLimb i < 2 ^ s.params.w
  crte : ∀ i, s.getCrte i < 2 ^ s.params.wm
  wdata : s.wdata < 2 ^ s.params.wm
  responses : ∀ r ∈ s.responses, r.rdata < 2 ^ s.params.wm

/-- A memory in canonical form whose written words lie below `size` and have the width of a word. -/
def Memory.fits (m : Memory) (size w : Nat) : Prop :=
  m.wf = true ∧ ∀ c ∈ m.cells, c.1 < size ∧ c.2 < 2 ^ w

/-- The buffers and the ROM are canonical memories of their sizes (R27, R29). -/
structure State.memoriesOk (s : State) : Prop where
  bufs : ∀ m ∈ s.bufs, m.fits s.params.nmax s.params.w
  rom : s.rom.fits (2 * s.params.nmax) s.params.w

/-- What `CTX_VALID` and `TBL_VALID` mean (R29, R31, R33; 44_twiddle_rom.md R147). -/
structure State.ringOk (s : State) : Prop where
  ctx : s.status.ctxValid = true → 2 ≤ s.modulus
  noCtx : s.status.ctxValid = false → s.modulus = 0 ∧ s.logn = 0 ∧ s.status.tblValid = false
  prime : s.status.tblValid = true → s.modulus.Prime
  divides : s.status.tblValid = true → 2 * s.n ∣ s.modulus - 1
  root : s.status.tblValid = true → 1 ≤ s.psi ∧ s.psi < s.modulus ∧ s.psi ^ s.n % s.modulus = s.modulus - 1
  rom : s.status.tblValid = true → ∀ j < 2 * s.n, s.romWord j = s.psi ^ j % s.modulus
  psiInv : s.status.tblValid = true → s.psiInv < s.modulus ∧ s.psi * s.psiInv % s.modulus = 1
  nInv : s.status.tblValid = true → s.nInv < s.modulus ∧ s.n * s.nInv % s.modulus = 1

/-- What `CRT_VALID` means (R31; 47_crt_reconstructor.md R178). -/
structure State.crtOk (s : State) : Prop where
  count : s.status.crtValid = true → 1 ≤ s.k
  limbs : s.status.crtValid = true → ∀ i < s.k, 2 ≤ s.getLimb i
  coprime : s.status.crtValid = true → ∀ i < s.k, ∀ j < s.k, i ≠ j → (s.getLimb i).Coprime (s.getLimb j)
  bigM : s.status.crtValid = true → s.bigM = ((List.range s.k).map s.getLimb).prod
  below : s.status.crtValid = true → ∀ i < s.k, s.getCrte i < s.bigM
  own : s.status.crtValid = true → ∀ i < s.k, s.getCrte i % s.getLimb i = 1
  other : s.status.crtValid = true → ∀ i < s.k, ∀ j < s.k, i ≠ j → s.getCrte i % s.getLimb j = 0

/-- `STATUS.ERR` holds a code that some command produces, and a failure is remembered (60_exceptions.md R200, R203,
R211). -/
structure State.statusOk (s : State) : Prop where
  code : s.status.err ∈ ([0, 1, 4, 5, 7, 8, 9, 10] : List ErrCode)
  sticky : s.status.err ≠ 0 → s.status.sticky = true

/-- The invariant of the block: every promise above, for a legal instance (00_scope.md R5). -/
structure State.Inv (s : State) : Prop where
  legal : s.params.legal = true
  shapes : s.shapesOk
  widths : s.widthsOk
  memories : s.memoriesOk
  ring : s.ringOk
  crt : s.crtOk
  status : s.statusOk

/-- No word of any buffer and no ROM word differs between the two states. -/
structure State.sameMemory (s t : State) : Prop where
  bufs : ∀ b i, t.bufWord b i = s.bufWord b i
  rom : ∀ j, t.romWord j = s.romWord j

/-- No control register but `STATUS` differs, and the parameters are the same (R30). -/
structure State.sameCsrs (s t : State) : Prop where
  params : t.params = s.params
  modulus : t.modulus = s.modulus
  logn : t.logn = s.logn
  psi : t.psi = s.psi
  psiInv : t.psiInv = s.psiInv
  nInv : t.nInv = s.nInv
  k : t.k = s.k
  bigM : t.bigM = s.bigM
  limb : ∀ i, t.getLimb i = s.getLimb i
  crte : ∀ i, t.getCrte i = s.getCrte i

/-- None of the three valid flags differs (R31). -/
def State.sameValid (s t : State) : Prop :=
  t.status.ctxValid = s.status.ctxValid ∧ t.status.tblValid = s.status.tblValid ∧
    t.status.crtValid = s.status.crtValid

/-- No register differs. -/
def State.sameX (s t : State) : Prop := ∀ r, t.getX r = s.getX r

/-- No tuple register differs. -/
def State.sameTuple (s t : State) : Prop := ∀ i, t.getT i = s.getT i

/-- The command ended with `code` and `rdata`: its code stands in `STATUS.ERR` and in the one response added, and the
host's list, the datum port and the count of resets are as they were (60_exceptions.md R200, R210, R211). -/
structure State.ended (s t : State) (code : ErrCode) (rdata : Nat) : Prop where
  err : t.status.err = code
  responses : t.responses = s.responses ++ [⟨code, rdata⟩]
  pending : t.pending = s.pending
  wdata : t.wdata = s.wdata
  resets : t.resets = s.resets

/-- A successful command that leaves `STICKY` alone (R211). -/
structure State.succeeded (s t : State) (rdata : Nat) : Prop where
  ended : s.ended t 0 rdata
  sticky : t.status.sticky = s.status.sticky

/-- A command that ended in an error: nothing but `STATUS.ERR` and `STATUS.STICKY` differs (R210). -/
structure State.rejected (s t : State) (code : ErrCode) : Prop where
  x : s.sameX t
  tuple : s.sameTuple t
  memory : s.sameMemory t
  csrs : s.sameCsrs t
  valid : s.sameValid t
  sticky : t.status.sticky = true
  ended : s.ended t code 0

/-- The command answers the error `code`. -/
def State.rejects (s : State) (i : Instr) (code : ErrCode) : Prop :=
  ∃ t, exec i s = .next t ∧ s.rejected t code

/-- A successful command that changed nothing and responded `rdata`. -/
structure State.onlyResponds (s t : State) (rdata : Nat) : Prop where
  x : s.sameX t
  tuple : s.sameTuple t
  memory : s.sameMemory t
  csrs : s.sameCsrs t
  valid : s.sameValid t
  succeeded : s.succeeded t rdata

/-- A successful command whose one effect is `x[rd] <- v`. -/
structure State.onlyX (s t : State) (rd : RegNum) (v : Nat) : Prop where
  value : t.getX rd = v
  others : ∀ r, r ≠ rd → t.getX r = s.getX r
  tuple : s.sameTuple t
  memory : s.sameMemory t
  csrs : s.sameCsrs t
  valid : s.sameValid t
  succeeded : s.succeeded t 0

/-- A successful command whose one effect is on the tuple registers: entry `i` becomes `v i` where `w i` holds. -/
structure State.onlyTuple (s t : State) (w : Nat → Prop) (v : Nat → Nat) : Prop where
  value : ∀ i, w i → t.getT i = v i
  others : ∀ i, ¬ w i → t.getT i = s.getT i
  x : s.sameX t
  memory : s.sameMemory t
  csrs : s.sameCsrs t
  valid : s.sameValid t
  succeeded : s.succeeded t 0

/-- A successful command whose one effect is on buffer `b`: word `i` becomes `v i` where `w i` holds; every other word
of every buffer, and the ROM, is as it was. -/
structure State.onlyBuf (s t : State) (b : BufNum) (w : Nat → Prop) (v : Nat → Nat) : Prop where
  value : ∀ i, w i → t.bufWord b i = v i
  sameBuf : ∀ i, ¬ w i → t.bufWord b i = s.bufWord b i
  otherBufs : ∀ q, q ≠ b → ∀ i, t.bufWord q i = s.bufWord q i
  rom : ∀ j, t.romWord j = s.romWord j
  x : s.sameX t
  tuple : s.sameTuple t
  csrs : s.sameCsrs t
  valid : s.sameValid t
  succeeded : s.succeeded t 0

/-- The state right after reset, as far as the spec fixes it (10_state.md R39): everything but the words of the buffers
and of the ROM. -/
structure State.isReset (t : State) : Prop where
  x : ∀ r, t.getX r = 0
  tuple : ∀ i, t.getT i = 0
  status : t.status.word = 0
  modulus : t.modulus = 0
  logn : t.logn = 0
  psi : t.psi = 0
  psiInv : t.psiInv = 0
  nInv : t.nInv = 0
  k : t.k = 0
  bigM : t.bigM = 0
  limb : ∀ i, t.getLimb i = 0
  crte : ∀ i, t.getCrte i = 0

end Sys2Proof.Machine

namespace Sys2Proof

open Sys2Proof.Machine

/-- The registers a command may write (10_state.md R22). -/
def Instr.writesX : Instr → List RegNum
  | .setr ra => [ra]
  | .mov ra _ => [ra]
  | .ldc ra _ _ => [ra]
  | .gett ra _ => [ra]
  | .add ra _ _ => [ra]
  | .sub ra _ _ => [ra]
  | .neg ra _ => [ra]
  | .mul ra _ _ => [ra]
  | .pow ra _ _ => [ra]
  | .inv ra _ => [ra]
  | .twd ra _ => [ra]
  | .brev ra _ => [ra]
  | .bfly ra rb _ => [ra, rb]
  | .compose ra => [ra]
  | .rescale ra _ => [ra]
  | .nop => []
  | .getr _ => []
  | .getc _ => []
  | .setctx _ _ => []
  | .stc _ _ _ => []
  | .sett _ _ => []
  | .clrerr => []
  | .pwmul _ _ => []
  | .tbuild => []
  | .brperm _ => []
  | .nttfwd _ => []
  | .nttinv _ => []
  | .setlimb _ _ => []
  | .crtbuild _ => []
  | .decomp _ => []

/-- The tuple registers a command may write (10_state.md R24). -/
def Instr.writesT (i : Instr) (s : State) (j : Nat) : Prop :=
  match i with
  | .sett _ imm => j = imm.toNat
  | .decomp _ => j < s.k
  | .rescale _ _ => j < s.k
  | _ => False

/-- The buffer words a command may write (10_state.md R27). -/
def Instr.writesBuf (i : Instr) (s : State) (b : BufNum) (j : Nat) : Prop :=
  match i with
  | .stc _ rb imm => b = rb ∧ j = imm.toNat
  | .pwmul ra _ => b = ra ∧ j < s.n
  | .brperm ra => b = ra ∧ j < s.n
  | .nttfwd ra => b = ra ∧ j < s.n
  | .nttinv ra => b = ra ∧ j < s.n
  | _ => False

/-- The errors a command may report, in the order it checks them (60_exceptions.md R201). -/
def Instr.errors : Instr → List Err
  | .nop => []
  | .setr _ => []
  | .getr _ => []
  | .mov _ _ => []
  | .getc _ => [.indexOutOfRange]
  | .setctx _ _ => [.invalidModulus]
  | .ldc _ _ _ => [.notConfigured, .indexOutOfRange]
  | .stc _ _ _ => [.notConfigured, .indexOutOfRange, .nonCanonical]
  | .sett _ _ => [.indexOutOfRange, .nonCanonical]
  | .gett _ _ => [.indexOutOfRange]
  | .clrerr => []
  | .add _ _ _ => [.notConfigured, .nonCanonical]
  | .sub _ _ _ => [.notConfigured, .nonCanonical]
  | .neg _ _ => [.notConfigured, .nonCanonical]
  | .mul _ _ _ => [.notConfigured, .nonCanonical]
  | .pow _ _ _ => [.notConfigured, .nonCanonical]
  | .pwmul _ _ => [.notConfigured, .indexOutOfRange, .nonCanonical]
  | .inv _ _ => [.notConfigured, .nonCanonical, .notInvertible]
  | .tbuild => [.notConfigured, .invalidModulus, .noPrimitiveRoot]
  | .twd _ _ => [.notConfigured, .indexOutOfRange]
  | .brev _ _ => [.notConfigured, .indexOutOfRange]
  | .brperm _ => [.notConfigured, .indexOutOfRange]
  | .bfly _ _ _ => [.illegalCommand, .notConfigured, .nonCanonical]
  | .nttfwd _ => [.notConfigured, .indexOutOfRange, .nonCanonical]
  | .nttinv _ => [.notConfigured, .indexOutOfRange, .nonCanonical]
  | .setlimb _ _ => [.indexOutOfRange, .invalidModulus]
  | .crtbuild _ => [.invalidModulus]
  | .compose _ => [.notConfigured, .nonCanonical]
  | .decomp _ => [.notConfigured]
  | .rescale _ _ => [.notConfigured, .nonCanonical, .modulusMismatch]

/-- The command needs one of the three valid flags (60_exceptions.md R201, code 9). -/
def Instr.needsConfiguration (i : Instr) : Bool := i.errors.contains .notConfigured

end Sys2Proof
end

