-- ==== Sys2Proof/Certificates/Slice0/Obligations.lean ====
section
/-! DEFINITION. The statements about the block, from the numbered rules of spec/. Every statement about "every state"
quantifies over the parameters too (00_scope.md R5), since they are part of the state. -/

open Sys2Proof Sys2Proof.Machine

/-! ## Encoding -/

/-- 30_encoding.md R81, R82: the word of a well-formed command decodes to that command. -/
def Obligations.DecodeEncodeRoundTrip : Prop :=
  ∀ i : Instr, i.wellFormed = true → decode (encode i) = .ok i

/-- 30_encoding.md R81, R82: a word that decodes to a command is that command's encoding, and the command is
well-formed. -/
def Obligations.DecodedWordIsItsEncoding : Prop :=
  ∀ (w : CmdWord) (i : Instr), decode w = .ok i → i.wellFormed = true ∧ encode i = w

/-- 30_encoding.md R82, R84: a word decodes exactly when one row of the opcode map selects it and, for `BFLY`,
`ra != rb`; the command has the mnemonic of that row, and no other row selects the word. -/
def Obligations.DecodingFollowsOpcodeMap : Prop :=
  ∀ w : CmdWord,
    (∀ i, decode w = .ok i →
      ∃ r ∈ opcodeTable, w &&& r.mask = r.pat ∧ r.mnemonic = i.mnemonic ∧
        (r.mnemonic = "BFLY" → raField w ≠ rbField w) ∧
        ∀ r' ∈ opcodeTable, w &&& r'.mask = r'.pat → r' = r) ∧
    (∀ r ∈ opcodeTable, w &&& r.mask = r.pat → (r.mnemonic = "BFLY" → raField w ≠ rbField w) →
      ∃ i, decode w = .ok i ∧ i.mnemonic = r.mnemonic)

/-- 30_encoding.md R84, R88: words written out from the encoding, one family after another. -/
def Obligations.WrittenWordsDecode : Prop :=
  decode 0x00000000 = .ok .nop ∧
  decode 0x01300000 = .ok (.setr 3) ∧
  decode 0x06510003 = .ok (.ldc 5 1 3) ∧
  decode 0x05100002 = .ok (.setctx 1 2) ∧
  decode 0x10312000 = .ok (.add 3 1 2) ∧
  decode 0x21312000 = .ok (.pow 3 1 2) ∧
  decode 0x30210000 = .ok (.inv 2 1) ∧
  decode 0x41400005 = .ok (.twd 4 5) ∧
  decode 0x50210000 = .ok (.brev 2 1) ∧
  decode 0x60123000 = .ok (.bfly 1 2 3) ∧
  decode 0x61000000 = .ok (.nttfwd 0) ∧
  decode 0x71000003 = .ok (.crtbuild 3) ∧
  decode 0x81120000 = .ok (.rescale 1 2) ∧
  decode 0x10312001 = .error .nonzeroReservedBits ∧
  decode 0x60113000 = .error .butterflySameRegisters ∧
  decode 0x0B000000 = .error .unassignedOpcode

/-! ## Steps of the engine and the host -/

/-- 00_scope.md R7, R8: when the host's next act is to issue a word that decodes to `i`, the step is `i` executed on the
state with that command off the host's list and its datum, of `WM` bits, on the port. -/
def Obligations.StepRunsDecodedCommand : Prop :=
  ∀ (s : State) (cmd : CmdWord) (d : Nat) (rest : List HostEvent) (i : Instr),
    s.params.legal = true → s.pending = .command cmd d :: rest → decode cmd = .ok i →
      step s = exec i { s with pending := rest, wdata := d % 2 ^ s.params.wm }

/-- 30_encoding.md R82, R86: a word that no row of the opcode map selects, or that spells `BFLY` with `ra = rb`, is
answered with code 8 and changes nothing but `STATUS.ERR` and `STATUS.STICKY`. -/
def Obligations.IllegalWordIsRejected : Prop :=
  ∀ (s : State) (cmd : CmdWord) (d : Nat) (rest : List HostEvent),
    s.params.legal = true → s.pending = .command cmd d :: rest →
    ((∀ r ∈ opcodeTable, cmd &&& r.mask ≠ r.pat) ∨
      (cmd &&& 0xFF000FFF = 0x60000000 ∧ raField cmd = rbField cmd)) →
      ∃ t, step s = .next t ∧
        State.rejected { s with pending := rest, wdata := d % 2 ^ s.params.wm } t 8

/-- 60_exceptions.md R214, 70_reset_and_hazards.md R246: on a legal instance every step answers a next state; nothing
stops the block, and its parameters stay. -/
def Obligations.EveryStepAnswers : Prop :=
  ∀ s : State, s.params.legal = true → ∃ t, step s = .next t ∧ t.params = s.params

/-- 70_reset_and_hazards.md R230 with 10_state.md R39: the reset event leaves every register, tuple register and control
register zero, `STATUS = 0x00`, and the parameters as they are. -/
def Obligations.HostResetZeroesRegisters : Prop :=
  ∀ (s : State) (rest : List HostEvent), s.params.legal = true → s.pending = .reset :: rest →
    ∃ t, step s = .next t ∧ t.isReset ∧ t.params = s.params ∧ t.pending = rest ∧ t.responses = s.responses

/-- 10_state.md R39: the reset state of every legal instance is the spec's and meets the block's invariant. The
reference instance is one. -/
def Obligations.ResetMeetsInvariant : Prop :=
  (∀ P : Params, P.legal = true →
      (State.resetOf P).isReset ∧ (State.resetOf P).params = P ∧ (State.resetOf P).Inv) ∧
    State.reset = State.resetOf Params.reference ∧ State.reset.params.legal = true

/-- 70_reset_and_hazards.md R232: right after reset exactly the commands that need a valid flag respond
`NotConfigured`, and `CRTBUILD` responds `InvalidModulus`. -/
def Obligations.CommandsRightAfterReset : Prop :=
  ∀ (P : Params) (i : Instr), P.legal = true → i.wellFormed = true →
    ∃ t, exec i (State.resetOf P) = .next t ∧
      (t.status.err = 9 ↔ ¬ (match i with
        | .nop => True
        | .setr _ => True
        | .getr _ => True
        | .mov _ _ => True
        | .getc _ => True
        | .sett _ _ => True
        | .gett _ _ => True
        | .clrerr => True
        | .setctx _ _ => True
        | .setlimb _ _ => True
        | .crtbuild _ => True
        | _ => False)) ∧
      (∀ imm, i = .crtbuild imm → t.status.err = 1)

/-! ## Invariants every step keeps -/

/-- 10_state.md R20 to R30: every step keeps the counts and widths of all registers and ports. -/
def Obligations.StepKeepsShapesAndWidths : Prop :=
  ∀ s t : State, s.Inv → step s = .next t → t.params = s.params ∧ t.shapesOk ∧ t.widthsOk

/-- 10_state.md R27, R29: every step keeps the buffers and the ROM canonical memories of their sizes and widths. -/
def Obligations.StepKeepsCanonicalMemories : Prop :=
  ∀ s t : State, s.Inv → step s = .next t → t.memoriesOk

/-- 10_state.md R29, R31, R33: every step keeps what `CTX_VALID` and `TBL_VALID` mean, the whole table included. -/
def Obligations.StepKeepsContextAndTable : Prop :=
  ∀ s t : State, s.Inv → step s = .next t → t.ringOk

/-- 10_state.md R31, 47_crt_reconstructor.md R178: every step keeps what `CRT_VALID` means. -/
def Obligations.StepKeepsCrtCoefficients : Prop :=
  ∀ s t : State, s.Inv → step s = .next t → t.crtOk

/-- 60_exceptions.md R200, R203: every step keeps `STATUS.ERR` a code that is produced (never 2, 3, 6, nor 11 to 15), and
an error in `STATUS.ERR` remembered in `STATUS.STICKY`. -/
def Obligations.StepKeepsStatusCodes : Prop :=
  ∀ s t : State, s.Inv → step s = .next t → t.statusOk

/-- The invariant along whole runs: whatever the host does, from any state that meets it. -/
def Obligations.RunsKeepInvariant : Prop :=
  ∀ (k : Nat) (s t : State), s.Inv → Host.Core.run Sys2Proof.core k s = .next t → t.Inv

/-! ## Errors and completion -/

/-- 60_exceptions.md R210: a command that ends in an error changes nothing but `STATUS.ERR` and `STATUS.STICKY`, and
responds its code with `rdata = 0`. -/
def Obligations.FailedCommandChangesNothing : Prop :=
  ∀ (i : Instr) (s t : State), exec i s = .next t → t.status.err ≠ 0 →
    s.rejected t t.status.err ∧
    t = { s with
      status := { s.status with err := t.status.err, sticky := true }
      responses := s.responses ++ [⟨t.status.err, 0⟩] }

/-- 60_exceptions.md R211: a command that succeeds writes `ERR <- 0`, leaves `STICKY` as it was (`CLRERR` clears it),
responds `err = 0`, and responds `rdata = 0` unless it is `GETR` or `GETC`; `GETC STATUS` reads the `STATUS` of before
its own update. -/
def Obligations.SucceedingCommandCompletes : Prop :=
  ∀ (i : Instr) (s t : State), exec i s = .next t → t.status.err = 0 →
    (∃ v, s.ended t 0 v ∧
      ((∀ ra, i ≠ .getr ra) → (∀ imm, i ≠ .getc imm) → v = 0) ∧
      (i = .getc 0 → 8 ≤ s.params.wm → v = s.status.word.toNat)) ∧
    t.status.sticky = (if i = .clrerr then false else s.status.sticky)

/-- 60_exceptions.md R201, R202: the codes each command can end with. In particular only `SETCTX`, `TBUILD`, `SETLIMB` and
`CRTBUILD` report `InvalidModulus` or `NoPrimitiveRoot` (R215), and codes 3 and 6 are never produced (R203). -/
def Obligations.CodesEachCommandCanReport : Prop :=
  ∀ (i : Instr) (s t : State), exec i s = .next t →
    t.status.err = 0 ∨ ∃ e ∈ i.errors, t.status.err = e.code

/-- 44_twiddle_rom.md R149: `TBUILD` never answers `NoPrimitiveRoot`; a prime without a root is reported as
`InvalidModulus`. -/
def Obligations.NoPrimitiveRootIsUnreachable : Prop :=
  (∀ s t : State, exec .tbuild s = .next t → t.status.err ≠ 2) ∧
  (∀ s : State, s.status.ctxValid = true → s.modulus.Prime →
    (¬ ∃ psi, 1 ≤ psi ∧ psi < s.modulus ∧ psi ^ s.n % s.modulus = s.modulus - 1) → s.rejects .tbuild 1)

/-- 60_exceptions.md R212: a command that failed fails again with the same code when it is issued again. -/
def Obligations.FailedCommandFailsAgain : Prop :=
  ∀ (i : Instr) (s t : State), exec i s = .next t → t.status.err ≠ 0 →
    ∃ u, exec i t = .next u ∧ u.status.err = t.status.err

/-- 20_memory.md R71: the maintenance rules of the two tables' flags, whole; `CTX_VALID` is set by `SETCTX` and cleared by
no command (70_reset_and_hazards.md R231). -/
def Obligations.ValidFlagsFollowMaintenanceRules : Prop :=
  ∀ (i : Instr) (s t : State), exec i s = .next t →
    (t.status.err ≠ 0 → s.sameValid t) ∧
    (t.status.err = 0 →
      match i with
      | .setctx ra imm =>
        t.status.ctxValid = true ∧ t.status.crtValid = s.status.crtValid ∧
        (imm.toNat = s.logn ∧ s.getX ra = s.modulus ∧ s.status.ctxValid = true →
          t.status.tblValid = s.status.tblValid) ∧
        (¬ (imm.toNat = s.logn ∧ s.getX ra = s.modulus) ∨ s.status.ctxValid = false →
          t.status.tblValid = false)
      | .tbuild =>
        t.status.tblValid = true ∧ t.status.ctxValid = s.status.ctxValid ∧ t.status.crtValid = s.status.crtValid
      | .setlimb _ _ =>
        t.status.crtValid = false ∧ t.status.ctxValid = s.status.ctxValid ∧ t.status.tblValid = s.status.tblValid
      | .crtbuild _ =>
        t.status.crtValid = true ∧ t.status.ctxValid = s.status.ctxValid ∧ t.status.tblValid = s.status.tblValid
      | _ => s.sameValid t)

/-! ## What each command leaves unchanged -/

/-- 10_state.md R22: a register is written only by the commands of R22's list, and only their destination registers. -/
def Obligations.RegistersWrittenOnlyByTheirCommands : Prop :=
  ∀ (i : Instr) (s t : State) (r : RegNum), exec i s = .next t → r ∉ i.writesX → t.getX r = s.getX r

/-- 10_state.md R24, R27, R29: tuple registers, buffer words and ROM words are written only by the commands named there,
and only those a command names. -/
def Obligations.TupleAndMemoryWrittenOnlyByTheirCommands : Prop :=
  ∀ (i : Instr) (s t : State), exec i s = .next t →
    (∀ j, ¬ i.writesT s j → t.getT j = s.getT j) ∧
    (∀ b j, ¬ i.writesBuf s b j → t.bufWord b j = s.bufWord b j) ∧
    (∀ j, ¬ (i = .tbuild ∧ j < 2 * s.n) → t.romWord j = s.romWord j)

/-- 10_state.md R30: each control register but `STATUS` is written only by the command its row names; `PARAMS` by
none. -/
def Obligations.ControlRegistersWrittenOnlyByTheirCommands : Prop :=
  ∀ (i : Instr) (s t : State), exec i s = .next t →
    t.params = s.params ∧
    ((∀ ra imm, i ≠ .setctx ra imm) → t.modulus = s.modulus ∧ t.logn = s.logn) ∧
    (i ≠ .tbuild → t.psi = s.psi ∧ t.psiInv = s.psiInv ∧ t.nInv = s.nInv) ∧
    ((∀ imm, i ≠ .crtbuild imm) → t.k = s.k ∧ t.bigM = s.bigM ∧ ∀ j, t.getCrte j = s.getCrte j) ∧
    (∀ j, (∀ ra imm, i = .setlimb ra imm → j ≠ imm.toNat) → t.getLimb j = s.getLimb j)

/-- 30_encoding.md R80: only `SETR` reads the write datum; for every other command any datum gives the same outcome. -/
def Obligations.DatumReadOnlyBySetr : Prop :=
  ∀ (i : Instr) (s t : State) (v : Nat), (∀ ra, i ≠ .setr ra) → exec i s = .next t →
    exec i { s with wdata := v } = .next { t with wdata := v }

/-! ## Host interface, ring context and data movement -/

/-- 40_context_and_data.md R100, R110: `NOP` does nothing; `CLRERR` clears `STICKY` and nothing else. Both always
succeed. -/
def Obligations.NopAndClrerrComplete : Prop :=
  ∀ s : State,
    decode (0x00#8 ++ 0#24) = .ok .nop ∧
    decode (0x0A#8 ++ 0#24) = .ok .clrerr ∧
    (∃ t, exec .nop s = .next t ∧ s.onlyResponds t 0) ∧
    (∃ t, exec .clrerr s = .next t ∧ t.status.sticky = false ∧ s.sameX t ∧ s.sameTuple t ∧ s.sameMemory t ∧
      s.sameCsrs t ∧ s.sameValid t ∧ s.ended t 0 0)

/-- 40_context_and_data.md R101, R102, R103: `SETR` writes the datum, `GETR` responds the register, `MOV` copies a
register. They always succeed. -/
def Obligations.RegisterTransfersComplete : Prop :=
  ∀ (s : State) (ra rb : RegNum),
    decode (0x01#8 ++ (ra ++ 0#20)) = .ok (.setr ra) ∧
    decode (0x02#8 ++ (ra ++ 0#20)) = .ok (.getr ra) ∧
    decode (0x03#8 ++ (ra ++ (rb ++ 0#16))) = .ok (.mov ra rb) ∧
    (∃ t, exec (.setr ra) s = .next t ∧ s.onlyX t ra s.wdata) ∧
    (∃ t, exec (.getr ra) s = .next t ∧ s.onlyResponds t (s.getX ra)) ∧
    (∃ t, exec (.mov ra rb) s = .next t ∧ s.onlyX t ra (s.getX rb))

/-- 40_context_and_data.md R104 with 10_state.md R30, R31, R32: `GETC` responds the control register with the number,
and an unassigned number is `IndexOutOfRange`. A value that fits the `WM`-bit port is responded as it stands; on an
instance whose port is too narrow for it the response carries some value of the port. -/
def Obligations.GetcReadsControlRegisters : Prop :=
  ∀ (s : State) (imm : Imm16),
    decode (0x04#8 ++ (0#8 ++ imm)) = .ok (.getc imm) ∧
    (∀ v : Nat,
      ((imm.toNat = 0x00 ∧ v = s.status.ctxValid.toNat + 2 * s.status.tblValid.toNat + 4 * s.status.crtValid.toNat +
          8 * s.status.sticky.toNat + 16 * s.status.err.toNat) ∨
        (imm.toNat = 0x01 ∧ v = s.modulus) ∨ (imm.toNat = 0x02 ∧ v = s.logn) ∨ (imm.toNat = 0x03 ∧ v = s.psi) ∨
        (imm.toNat = 0x04 ∧ v = s.psiInv) ∨ (imm.toNat = 0x05 ∧ v = s.nInv) ∨ (imm.toNat = 0x06 ∧ v = s.k) ∨
        (imm.toNat = 0x07 ∧ v = s.bigM) ∨
        (imm.toNat = 0x08 ∧
          v = s.params.w + s.params.kmax * 2 ^ 8 + s.params.lognmax * 2 ^ 12 + s.params.nbuf * 2 ^ 17) ∨
        (∃ j < s.params.kmax, s.params.kmax ≤ 8 ∧ imm.toNat = 0x10 + j ∧ v = s.getLimb j) ∨
        (∃ j < s.params.kmax, s.params.kmax ≤ 8 ∧ imm.toNat = 0x20 + j ∧ v = s.getCrte j)) →
      ∃ t r, exec (.getc imm) s = .next t ∧ s.onlyResponds t r ∧ r < 2 ^ s.params.wm ∧
        (v < 2 ^ s.params.wm → r = v)) ∧
    (0x08 < imm.toNat → ¬ (0x10 ≤ imm.toNat ∧ imm.toNat < 0x10 + s.params.kmax) →
      ¬ (0x20 ≤ imm.toNat ∧ imm.toNat < 0x20 + s.params.kmax) → s.rejects (.getc imm) 4)

/-- 40_context_and_data.md R105: `SETCTX` refuses a degree or modulus out of range and otherwise sets the context, keeping
`TBL_VALID` only where the context is unchanged; it touches no register, tuple register, buffer or CRT state. -/
def Obligations.SetctxSetsRingContext : Prop :=
  ∀ (s : State) (ra : RegNum) (imm : Imm16),
    decode (0x05#8 ++ (ra ++ (0#4 ++ imm))) = .ok (.setctx ra imm) ∧
    (s.params.lognmax < imm.toNat ∨ s.getX ra < 2 ∨ 2 ^ s.params.w ≤ s.getX ra →
      s.rejects (.setctx ra imm) 1) ∧
    (imm.toNat ≤ s.params.lognmax → 2 ≤ s.getX ra → s.getX ra < 2 ^ s.params.w →
      ∃ t, exec (.setctx ra imm) s = .next t ∧
        t.modulus = s.getX ra ∧ t.logn = imm.toNat ∧ t.status.ctxValid = true ∧
        (t.status.tblValid = true ↔
          s.status.tblValid = true ∧ s.status.ctxValid = true ∧ imm.toNat = s.logn ∧ s.getX ra = s.modulus) ∧
        t.status.crtValid = s.status.crtValid ∧
        t.psi = s.psi ∧ t.psiInv = s.psiInv ∧ t.nInv = s.nInv ∧ t.k = s.k ∧ t.bigM = s.bigM ∧
        (∀ j, t.getLimb j = s.getLimb j) ∧ (∀ j, t.getCrte j = s.getCrte j) ∧ t.params = s.params ∧
        s.sameX t ∧ s.sameTuple t ∧ s.sameMemory t ∧ s.succeeded t 0)

/-- 40_context_and_data.md R106: `LDC` needs a context and bounds, and then loads the word as stored. -/
def Obligations.LdcLoadsBufferWord : Prop :=
  ∀ (s : State) (ra : RegNum) (rb : BufNum) (imm : Imm16),
    decode (0x06#8 ++ (ra ++ (rb ++ imm))) = .ok (.ldc ra rb imm) ∧
    (s.status.ctxValid = false → s.rejects (.ldc ra rb imm) 9) ∧
    (s.status.ctxValid = true → (s.params.nbuf ≤ rb.toNat ∨ s.n ≤ imm.toNat) → s.rejects (.ldc ra rb imm) 4) ∧
    (s.status.ctxValid = true → rb.toNat < s.params.nbuf → imm.toNat < s.n →
      ∃ t, exec (.ldc ra rb imm) s = .next t ∧ s.onlyX t ra (s.bufWord rb imm.toNat))

/-- 40_context_and_data.md R107: `STC` needs a context, bounds and a canonical value, and then stores it in exactly the
word it names. The premise on the number of buffers is part of the block's invariant (10_state.md R27). -/
def Obligations.StcStoresBufferWord : Prop :=
  ∀ (s : State) (ra : RegNum) (rb : BufNum) (imm : Imm16), s.bufs.length = s.params.nbuf →
    decode (0x07#8 ++ (ra ++ (rb ++ imm))) = .ok (.stc ra rb imm) ∧
    (s.status.ctxValid = false → s.rejects (.stc ra rb imm) 9) ∧
    (s.status.ctxValid = true → (s.params.nbuf ≤ rb.toNat ∨ s.n ≤ imm.toNat) → s.rejects (.stc ra rb imm) 4) ∧
    (s.status.ctxValid = true → rb.toNat < s.params.nbuf → imm.toNat < s.n → s.modulus ≤ s.getX ra →
      s.rejects (.stc ra rb imm) 10) ∧
    (s.status.ctxValid = true → rb.toNat < s.params.nbuf → imm.toNat < s.n → s.getX ra < s.modulus →
      ∃ t, exec (.stc ra rb imm) s = .next t ∧ s.onlyBuf t rb (fun i => i = imm.toNat) (fun _ => s.getX ra))

/-- 40_context_and_data.md R108, R109: `SETT` and `GETT` check the index, `SETT` the width, and move one tuple register;
no configuration is needed. The premise on the number of tuple registers is part of the invariant (10_state.md R24). -/
def Obligations.TupleTransfersComplete : Prop :=
  ∀ (s : State) (ra : RegNum) (imm : Imm16), s.t.length = s.params.kmax →
    decode (0x08#8 ++ (ra ++ (0#4 ++ imm))) = .ok (.sett ra imm) ∧
    decode (0x09#8 ++ (ra ++ (0#4 ++ imm))) = .ok (.gett ra imm) ∧
    (s.params.kmax ≤ imm.toNat → s.rejects (.sett ra imm) 4 ∧ s.rejects (.gett ra imm) 4) ∧
    (imm.toNat < s.params.kmax → 2 ^ s.params.w ≤ s.getX ra → s.rejects (.sett ra imm) 10) ∧
    (imm.toNat < s.params.kmax → s.getX ra < 2 ^ s.params.w →
      ∃ t, exec (.sett ra imm) s = .next t ∧ s.onlyTuple t (fun i => i = imm.toNat) (fun _ => s.getX ra)) ∧
    (imm.toNat < s.params.kmax →
      ∃ t, exec (.gett ra imm) s = .next t ∧ s.onlyX t ra (s.getT imm.toNat))

/-! ## modular_adder -/

/-- 41_modular_adder.md R121: `ADD`. -/
def Obligations.AddIsModularAddition : Prop :=
  ∀ (s : State) (ra rb rc : RegNum),
    decode (0x10#8 ++ (ra ++ (rb ++ (rc ++ 0#12)))) = .ok (.add ra rb rc) ∧
    (s.status.ctxValid = false → s.rejects (.add ra rb rc) 9) ∧
    (s.status.ctxValid = true → (s.modulus ≤ s.getX rb ∨ s.modulus ≤ s.getX rc) → s.rejects (.add ra rb rc) 10) ∧
    (s.status.ctxValid = true → s.getX rb < s.modulus → s.getX rc < s.modulus →
      ∃ t, exec (.add ra rb rc) s = .next t ∧
        s.onlyX t ra (if s.modulus ≤ s.getX rb + s.getX rc then s.getX rb + s.getX rc - s.modulus
          else s.getX rb + s.getX rc))

/-- 41_modular_adder.md R122: `SUB` computes `rb` minus `rc`. -/
def Obligations.SubIsModularSubtraction : Prop :=
  ∀ (s : State) (ra rb rc : RegNum),
    decode (0x11#8 ++ (ra ++ (rb ++ (rc ++ 0#12)))) = .ok (.sub ra rb rc) ∧
    (s.status.ctxValid = false → s.rejects (.sub ra rb rc) 9) ∧
    (s.status.ctxValid = true → (s.modulus ≤ s.getX rb ∨ s.modulus ≤ s.getX rc) → s.rejects (.sub ra rb rc) 10) ∧
    (s.status.ctxValid = true → s.getX rb < s.modulus → s.getX rc < s.modulus →
      ∃ t, exec (.sub ra rb rc) s = .next t ∧
        s.onlyX t ra (if s.getX rc ≤ s.getX rb then s.getX rb - s.getX rc
          else s.getX rb + s.modulus - s.getX rc))

/-- 41_modular_adder.md R123: `NEG`. -/
def Obligations.NegIsModularNegation : Prop :=
  ∀ (s : State) (ra rb : RegNum),
    decode (0x12#8 ++ (ra ++ (rb ++ 0#16))) = .ok (.neg ra rb) ∧
    (s.status.ctxValid = false → s.rejects (.neg ra rb) 9) ∧
    (s.status.ctxValid = true → s.modulus ≤ s.getX rb → s.rejects (.neg ra rb) 10) ∧
    (s.status.ctxValid = true → s.getX rb < s.modulus →
      ∃ t, exec (.neg ra rb) s = .next t ∧ s.onlyX t ra (if s.getX rb = 0 then 0 else s.modulus - s.getX rb))

/-! ## modular_multiplier -/

/-- 42_modular_multiplier.md R131: `MUL` reduces the exact product. -/
def Obligations.MulIsModularMultiplication : Prop :=
  ∀ (s : State) (ra rb rc : RegNum),
    decode (0x20#8 ++ (ra ++ (rb ++ (rc ++ 0#12)))) = .ok (.mul ra rb rc) ∧
    (s.status.ctxValid = false → s.rejects (.mul ra rb rc) 9) ∧
    (s.status.ctxValid = true → (s.modulus ≤ s.getX rb ∨ s.modulus ≤ s.getX rc) → s.rejects (.mul ra rb rc) 10) ∧
    (s.status.ctxValid = true → s.getX rb < s.modulus → s.getX rc < s.modulus →
      ∃ t, exec (.mul ra rb rc) s = .next t ∧ s.onlyX t ra (s.getX rb * s.getX rc % s.modulus))

/-- 42_modular_multiplier.md R132: `POW` gives the exact power reduced, with `a^0 = 1`; only the base is checked. -/
def Obligations.PowIsModularPower : Prop :=
  ∀ (s : State) (ra rb rc : RegNum),
    decode (0x21#8 ++ (ra ++ (rb ++ (rc ++ 0#12)))) = .ok (.pow ra rb rc) ∧
    (s.status.ctxValid = false → s.rejects (.pow ra rb rc) 9) ∧
    (s.status.ctxValid = true → s.modulus ≤ s.getX rb → s.rejects (.pow ra rb rc) 10) ∧
    (s.status.ctxValid = true → s.getX rb < s.modulus →
      ∃ t, exec (.pow ra rb rc) s = .next t ∧ s.onlyX t ra (s.getX rb ^ s.getX rc % s.modulus))

/-- 42_modular_multiplier.md R134: `PWMUL` checks context, buffer numbers and all `2n` words, and then writes the `n`
products in place, also where the two buffers are one. -/
def Obligations.PwmulIsPointwiseProduct : Prop :=
  ∀ (s : State) (ra rb : BufNum), s.bufs.length = s.params.nbuf →
    decode (0x22#8 ++ (ra ++ (rb ++ 0#16))) = .ok (.pwmul ra rb) ∧
    (s.status.ctxValid = false → s.rejects (.pwmul ra rb) 9) ∧
    (s.status.ctxValid = true → (s.params.nbuf ≤ ra.toNat ∨ s.params.nbuf ≤ rb.toNat) →
      s.rejects (.pwmul ra rb) 4) ∧
    (s.status.ctxValid = true → ra.toNat < s.params.nbuf → rb.toNat < s.params.nbuf →
      (∃ i < s.n, s.modulus ≤ s.bufWord ra i ∨ s.modulus ≤ s.bufWord rb i) → s.rejects (.pwmul ra rb) 10) ∧
    (s.status.ctxValid = true → ra.toNat < s.params.nbuf → rb.toNat < s.params.nbuf →
      (∀ i < s.n, s.bufWord ra i < s.modulus ∧ s.bufWord rb i < s.modulus) →
      ∃ t, exec (.pwmul ra rb) s = .next t ∧
        s.onlyBuf t ra (fun i => i < s.n) (fun i => s.bufWord ra i * s.bufWord rb i % s.modulus))

/-! ## modular_inverse_engine -/

/-- 43_modular_inverse_engine.md R141: `INV` rejects a non-unit and otherwise writes the one inverse below `m`. The
premise `2 <= m` holds in every context (10_state.md R33). -/
def Obligations.InvIsModularInverse : Prop :=
  ∀ (s : State) (ra rb : RegNum), (s.status.ctxValid = true → 2 ≤ s.modulus) →
    decode (0x30#8 ++ (ra ++ (rb ++ 0#16))) = .ok (.inv ra rb) ∧
    (s.status.ctxValid = false → s.rejects (.inv ra rb) 9) ∧
    (s.status.ctxValid = true → s.modulus ≤ s.getX rb → s.rejects (.inv ra rb) 10) ∧
    (s.status.ctxValid = true → s.getX rb < s.modulus → Nat.gcd (s.getX rb) s.modulus ≠ 1 →
      s.rejects (.inv ra rb) 5) ∧
    (s.status.ctxValid = true → s.getX rb < s.modulus → Nat.gcd (s.getX rb) s.modulus = 1 →
      ∃ t y, exec (.inv ra rb) s = .next t ∧ s.onlyX t ra y ∧ y < s.modulus ∧ s.getX rb * y % s.modulus = 1 ∧
        ∀ z < s.modulus, s.getX rb * z % s.modulus = 1 → z = y)

/-- 43_modular_inverse_engine.md R142: the laws of the inverse. -/
def Obligations.InverseLaws : Prop :=
  ∀ m a : Nat, 2 ≤ m → a < m → Nat.gcd a m = 1 →
    modmul a (modinv a m) m = 1 ∧
    modinv (modinv a m) m = a ∧
    (1 ≤ modinv a m ∧ modinv a m < m ∧ Nat.gcd (modinv a m) m = 1) ∧
    ∀ b < m, Nat.gcd b m = 1 → modinv (modmul a b m) m = modmul (modinv a m) (modinv b m) m

/-! ## twiddle_rom -/

/-- 44_twiddle_rom.md R145, R146, for every admissible `PSI_SELECT`: the checks in order, and otherwise the whole table
of the root it gives. That `PSI_SELECT` is a finite table with the least root as its fallback, as `psiSelect` reads it, is
the model's choice (notes/assumptions/4.md). -/
def Obligations.TbuildBuildsTable : Prop :=
  ∀ s : State,
    decode (0x40#8 ++ 0#24) = .ok .tbuild ∧
    (s.status.ctxValid = false → s.rejects .tbuild 9) ∧
    (s.status.ctxValid = true → ¬ s.modulus.Prime → s.rejects .tbuild 1) ∧
    (s.status.ctxValid = true → s.modulus.Prime → ¬ 2 * s.n ∣ s.modulus - 1 → s.rejects .tbuild 1) ∧
    (s.status.ctxValid = true → s.modulus.Prime → 2 * s.n ∣ s.modulus - 1 →
      ∃ t, exec .tbuild s = .next t ∧
        psiSelect s.params s.n s.modulus = some t.psi ∧
        1 ≤ t.psi ∧ t.psi < s.modulus ∧ t.psi ^ s.n % s.modulus = s.modulus - 1 ∧
        (∀ j < 2 * s.n, t.romWord j = t.psi ^ j % s.modulus) ∧
        (∀ j, 2 * s.n ≤ j → t.romWord j = s.romWord j) ∧
        t.psiInv < s.modulus ∧ t.psi * t.psiInv % s.modulus = 1 ∧ t.psiInv = t.romWord (2 * s.n - 1) ∧
        t.nInv < s.modulus ∧ s.n * t.nInv % s.modulus = 1 ∧
        t.status.tblValid = true ∧ t.status.ctxValid = s.status.ctxValid ∧ t.status.crtValid = s.status.crtValid ∧
        t.params = s.params ∧ t.modulus = s.modulus ∧ t.logn = s.logn ∧ t.k = s.k ∧ t.bigM = s.bigM ∧
        (∀ j, t.getLimb j = s.getLimb j) ∧ (∀ j, t.getCrte j = s.getCrte j) ∧
        s.sameX t ∧ s.sameTuple t ∧ (∀ b i, t.bufWord b i = s.bufWord b i) ∧ s.succeeded t 0)

/-- 44_twiddle_rom.md R146: the reference instance takes the least root. -/
def Obligations.ReferenceInstanceTakesLeastRoot : Prop :=
  ∀ s t : State, s.params = Params.reference → exec .tbuild s = .next t → t.status.err = 0 →
    t.psi ^ s.n % s.modulus = s.modulus - 1 ∧
    ∀ d, 1 ≤ d → d < t.psi → d ^ s.n % s.modulus ≠ s.modulus - 1

/-- 44_twiddle_rom.md R147: what a valid table holds. -/
def Obligations.ValidTableContents : Prop :=
  ∀ s : State, s.Inv → s.status.tblValid = true →
    (∀ j < 2 * s.n, s.romWord j = modpow s.psi j s.modulus) ∧ isRoot s.psi s.n s.modulus = true ∧
    s.romWord 0 = 1 ∧ s.romWord 1 = s.psi ∧ s.romWord s.n = s.modulus - 1 ∧
    (∀ j < s.n, s.romWord (j + s.n) = modneg (s.romWord j) s.modulus) ∧
    s.psiInv = s.romWord (2 * s.n - 1) ∧
    modmul s.psi s.psiInv s.modulus = 1 ∧ modmul (s.n % s.modulus) s.nInv s.modulus = 1 ∧
    (∀ i < s.n, s.romWord ((2 * s.n - i) % (2 * s.n)) = s.psiInv ^ i % s.modulus) ∧
    (∀ e < s.n, s.romWord (2 * e % (2 * s.n)) = (s.psi ^ 2) ^ e % s.modulus) ∧
    (∀ e < s.n, s.romWord ((2 * s.n - 2 * e) % (2 * s.n)) = (s.psiInv ^ 2) ^ e % s.modulus)

/-- 44_twiddle_rom.md R148: `TWD` needs a valid table and a bound, and then reads the ROM word. -/
def Obligations.TwdReadsTableWord : Prop :=
  ∀ (s : State) (ra : RegNum) (imm : Imm16),
    decode (0x41#8 ++ (ra ++ (0#4 ++ imm))) = .ok (.twd ra imm) ∧
    (s.status.tblValid = false → s.rejects (.twd ra imm) 9) ∧
    (s.status.tblValid = true → 2 * s.n ≤ imm.toNat → s.rejects (.twd ra imm) 4) ∧
    (s.status.tblValid = true → imm.toNat < 2 * s.n →
      ∃ t, exec (.twd ra imm) s = .next t ∧ s.onlyX t ra (s.romWord imm.toNat))

/-! ## bit_reverse_unit -/

/-- 45_bit_reverse_unit.md R156: `BREV` reverses the `LOGN` bits of an index. An index fits a register wherever
`LOGN <= WM`, as on the reference instance; on an instance with `WM < LOGNMAX` the spec states no value for a result that
does not fit, and the register then holds some value of its width (the model's choice: notes/assumptions/16.md). -/
def Obligations.BrevReversesIndex : Prop :=
  ∀ (s : State) (ra rb : RegNum),
    decode (0x50#8 ++ (ra ++ (rb ++ 0#16))) = .ok (.brev ra rb) ∧
    (s.status.ctxValid = false → s.rejects (.brev ra rb) 9) ∧
    (s.status.ctxValid = true → s.n ≤ s.getX rb → s.rejects (.brev ra rb) 4) ∧
    (s.status.ctxValid = true → s.getX rb < s.n →
      ∃ t v r, exec (.brev ra rb) s = .next t ∧
        v = ∑ k ∈ Finset.range s.logn, s.getX rb / 2 ^ k % 2 * 2 ^ (s.logn - 1 - k) ∧
        s.onlyX t ra r ∧ r < 2 ^ s.params.wm ∧ (v < 2 ^ s.params.wm → r = v) ∧ (s.logn ≤ s.params.wm → r = v))

/-- 45_bit_reverse_unit.md R157: `BRPERM` moves the words of one buffer, as stored, to their reversed indices. -/
def Obligations.BrpermPermutesBuffer : Prop :=
  ∀ (s : State) (ra : BufNum), s.bufs.length = s.params.nbuf →
    decode (0x51#8 ++ (ra ++ 0#20)) = .ok (.brperm ra) ∧
    (s.status.ctxValid = false → s.rejects (.brperm ra) 9) ∧
    (s.status.ctxValid = true → s.params.nbuf ≤ ra.toNat → s.rejects (.brperm ra) 4) ∧
    (s.status.ctxValid = true → ra.toNat < s.params.nbuf →
      ∃ t, exec (.brperm ra) s = .next t ∧
        s.onlyBuf t ra (fun i => i < s.n)
          (fun i => s.bufWord ra (∑ k ∈ Finset.range s.logn, i / 2 ^ k % 2 * 2 ^ (s.logn - 1 - k))))

/-- 45_bit_reverse_unit.md R158: the laws of bit reversal, and its definition by bits (00_scope.md R13). -/
def Obligations.BitReversalLaws : Prop :=
  ∀ l i : Nat, i < 2 ^ l →
    brev l i < 2 ^ l ∧
    brev l (brev l i) = i ∧
    brev (l + 1) (2 * i) = brev l i ∧
    brev (l + 1) (2 * i + 1) = brev l i + 2 ^ l ∧
    brev l i = ∑ k ∈ Finset.range l, i / 2 ^ k % 2 * 2 ^ (l - 1 - k)

/-! ## ntt_butterfly and the transform sequencer -/

/-- 46_ntt_butterfly.md R160, R161: `BFLY` on three registers; both outputs are computed from the old values. -/
def Obligations.BflyIsCooleyTukey : Prop :=
  ∀ (s : State) (ra rb rc : RegNum),
    (ra ≠ rb → decode (0x60#8 ++ (ra ++ (rb ++ (rc ++ 0#12)))) = .ok (.bfly ra rb rc)) ∧
    (ra = rb → decode (0x60#8 ++ (ra ++ (rb ++ (rc ++ 0#12)))) = .error .butterflySameRegisters) ∧
    (ra = rb → s.rejects (.bfly ra rb rc) 8) ∧
    (ra ≠ rb → s.status.ctxValid = false → s.rejects (.bfly ra rb rc) 9) ∧
    (ra ≠ rb → s.status.ctxValid = true →
      (s.modulus ≤ s.getX ra ∨ s.modulus ≤ s.getX rb ∨ s.modulus ≤ s.getX rc) → s.rejects (.bfly ra rb rc) 10) ∧
    (ra ≠ rb → s.status.ctxValid = true → s.getX ra < s.modulus → s.getX rb < s.modulus → s.getX rc < s.modulus →
      ∃ t, exec (.bfly ra rb rc) s = .next t ∧
        t.getX ra = (s.getX ra + s.getX rb * s.getX rc) % s.modulus ∧
        (t.getX rb : Int) = ((s.getX ra : Int) - s.getX rb * s.getX rc) % s.modulus ∧
        (∀ r, r ≠ ra → r ≠ rb → t.getX r = s.getX r) ∧
        s.sameTuple t ∧ s.sameMemory t ∧ s.sameCsrs t ∧ s.sameValid t ∧ s.succeeded t 0)

/-- 46_ntt_butterfly.md R166, R167: `NTTFWD` makes the checks of R166 in order, and otherwise leaves the values of the
polynomial at the odd powers of `psi`, in natural order (R167). This formula is the normative result; the model runs the
network of R165. -/
def Obligations.NttfwdComputesForwardTransform : Prop :=
  ∀ (s : State) (ra : BufNum), s.Inv →
    decode (0x61#8 ++ (ra ++ 0#20)) = .ok (.nttfwd ra) ∧
    (s.status.tblValid = false → s.rejects (.nttfwd ra) 9) ∧
    (s.status.tblValid = true → s.params.nbuf ≤ ra.toNat → s.rejects (.nttfwd ra) 4) ∧
    (s.status.tblValid = true → ra.toNat < s.params.nbuf → (∃ i < s.n, s.modulus ≤ s.bufWord ra i) →
      s.rejects (.nttfwd ra) 10) ∧
    (s.status.tblValid = true → ra.toNat < s.params.nbuf → (∀ i < s.n, s.bufWord ra i < s.modulus) →
      ∃ t, exec (.nttfwd ra) s = .next t ∧
        s.onlyBuf t ra (fun j => j < s.n)
          (fun j => (∑ i ∈ Finset.range s.n, s.bufWord ra i * s.psi ^ (i * (2 * j + 1))) % s.modulus))

/-- 46_ntt_butterfly.md R169 with 00_scope.md R16: `NTTINV` leaves the inverse transform; `PSI_INV` is `psi^(-1)` and
`N_INV` is `n^(-1)`. -/
def Obligations.NttinvComputesInverseTransform : Prop :=
  ∀ (s : State) (ra : BufNum), s.Inv →
    decode (0x62#8 ++ (ra ++ 0#20)) = .ok (.nttinv ra) ∧
    (s.status.tblValid = false → s.rejects (.nttinv ra) 9) ∧
    (s.status.tblValid = true → s.params.nbuf ≤ ra.toNat → s.rejects (.nttinv ra) 4) ∧
    (s.status.tblValid = true → ra.toNat < s.params.nbuf → (∃ i < s.n, s.modulus ≤ s.bufWord ra i) →
      s.rejects (.nttinv ra) 10) ∧
    (s.status.tblValid = true → ra.toNat < s.params.nbuf → (∀ i < s.n, s.bufWord ra i < s.modulus) →
      ∃ t, exec (.nttinv ra) s = .next t ∧
        s.onlyBuf t ra (fun i => i < s.n)
          (fun i => s.nInv * s.psiInv ^ i *
            (∑ j ∈ Finset.range s.n, s.bufWord ra j * s.psiInv ^ (2 * i * j)) % s.modulus))

/-- 46_ntt_butterfly.md R169: the round trip, in both orders: the two transforms undo each other on a buffer of canonical
words. -/
def Obligations.TransformsRoundTrip : Prop :=
  ∀ (s : State) (ra : BufNum), s.Inv → s.status.tblValid = true → ra.toNat < s.params.nbuf →
    (∀ i < s.n, s.bufWord ra i < s.modulus) →
    (∃ t u, exec (.nttfwd ra) s = .next t ∧ t.status.err = 0 ∧ exec (.nttinv ra) t = .next u ∧ u.status.err = 0 ∧
      s.sameMemory u) ∧
    (∃ t u, exec (.nttinv ra) s = .next t ∧ t.status.err = 0 ∧ exec (.nttfwd ra) t = .next u ∧ u.status.err = 0 ∧
      s.sameMemory u)

/-- 46_ntt_butterfly.md R170 with 00_scope.md R15: forward, forward, pointwise product, inverse is the negacyclic
product; the second buffer is left transformed. -/
def Obligations.ProductLaw : Prop :=
  ∀ (s : State) (ra rb : BufNum), s.Inv → s.status.tblValid = true → ra ≠ rb →
    ra.toNat < s.params.nbuf → rb.toNat < s.params.nbuf →
    (∀ i < s.n, s.bufWord ra i < s.modulus ∧ s.bufWord rb i < s.modulus) →
    ∃ t1 t2 t3 t4, exec (.nttfwd ra) s = .next t1 ∧ t1.status.err = 0 ∧
      exec (.nttfwd rb) t1 = .next t2 ∧ t2.status.err = 0 ∧
      exec (.pwmul ra rb) t2 = .next t3 ∧ t3.status.err = 0 ∧
      exec (.nttinv ra) t3 = .next t4 ∧ t4.status.err = 0 ∧
      (∀ k < s.n, (t4.bufWord ra k : Int) =
        ((∑ i ∈ Finset.range s.n, ∑ j ∈ Finset.range s.n,
            if i + j = k then (s.bufWord ra i * s.bufWord rb j : Int) else 0) -
          (∑ i ∈ Finset.range s.n, ∑ j ∈ Finset.range s.n,
            if i + j = k + s.n then (s.bufWord ra i * s.bufWord rb j : Int) else 0)) % s.modulus) ∧
      (∀ j < s.n, t4.bufWord rb j =
        (∑ i ∈ Finset.range s.n, s.bufWord rb i * s.psi ^ (i * (2 * j + 1))) % s.modulus)

/-! ## crt_reconstructor -/

/-- 47_crt_reconstructor.md R176: `SETLIMB` checks the index, then the value, and sets one limb, clearing `CRT_VALID`.
The premise on the number of limbs is part of the invariant (10_state.md R30). -/
def Obligations.SetlimbSetsLimb : Prop :=
  ∀ (s : State) (ra : RegNum) (imm : Imm16), s.limb.length = s.params.kmax →
    decode (0x70#8 ++ (ra ++ (0#4 ++ imm))) = .ok (.setlimb ra imm) ∧
    (s.params.kmax ≤ imm.toNat → s.rejects (.setlimb ra imm) 4) ∧
    (imm.toNat < s.params.kmax → (s.getX ra < 2 ∨ 2 ^ s.params.w ≤ s.getX ra) → s.rejects (.setlimb ra imm) 1) ∧
    (imm.toNat < s.params.kmax → 2 ≤ s.getX ra → s.getX ra < 2 ^ s.params.w →
      ∃ t, exec (.setlimb ra imm) s = .next t ∧
        t.getLimb imm.toNat = s.getX ra ∧ (∀ j, j ≠ imm.toNat → t.getLimb j = s.getLimb j) ∧
        t.status.crtValid = false ∧ t.status.ctxValid = s.status.ctxValid ∧ t.status.tblValid = s.status.tblValid ∧
        t.params = s.params ∧ t.modulus = s.modulus ∧ t.logn = s.logn ∧ t.psi = s.psi ∧ t.psiInv = s.psiInv ∧
        t.nInv = s.nInv ∧ t.k = s.k ∧ t.bigM = s.bigM ∧ (∀ j, t.getCrte j = s.getCrte j) ∧
        s.sameX t ∧ s.sameTuple t ∧ s.sameMemory t ∧ s.succeeded t 0)

/-- 47_crt_reconstructor.md R177: `CRTBUILD` rejects a bad count, an unset limb and limbs that are not pairwise coprime,
and otherwise writes `K`, `BIGM` and the coefficients of 00_scope.md R17. -/
def Obligations.CrtbuildBuildsCoefficients : Prop :=
  ∀ (s : State) (imm : Imm16),
    decode (0x71#8 ++ (0#8 ++ imm)) = .ok (.crtbuild imm) ∧
    (imm.toNat = 0 ∨ s.params.kmax < imm.toNat → s.rejects (.crtbuild imm) 1) ∧
    (1 ≤ imm.toNat → imm.toNat ≤ s.params.kmax → (∃ i < imm.toNat, s.getLimb i < 2) →
      s.rejects (.crtbuild imm) 1) ∧
    (1 ≤ imm.toNat → imm.toNat ≤ s.params.kmax → (∀ i < imm.toNat, 2 ≤ s.getLimb i) →
      (∃ i j, i < j ∧ j < imm.toNat ∧ ¬ (s.getLimb i).Coprime (s.getLimb j)) → s.rejects (.crtbuild imm) 1) ∧
    (1 ≤ imm.toNat → imm.toNat ≤ s.params.kmax → (∀ i < imm.toNat, 2 ≤ s.getLimb i) →
      (∀ i j, i < j → j < imm.toNat → (s.getLimb i).Coprime (s.getLimb j)) →
      ∃ t, exec (.crtbuild imm) s = .next t ∧
        t.k = imm.toNat ∧ t.bigM = ∏ i ∈ Finset.range imm.toNat, s.getLimb i ∧
        (∀ i < imm.toNat, ∃ y < s.getLimb i, t.bigM / s.getLimb i % s.getLimb i * y % s.getLimb i = 1 ∧
          t.getCrte i = t.bigM / s.getLimb i * y % t.bigM) ∧
        (∀ i, imm.toNat ≤ i → t.getCrte i = s.getCrte i) ∧
        (∀ i, t.getLimb i = s.getLimb i) ∧
        t.status.crtValid = true ∧ t.status.ctxValid = s.status.ctxValid ∧ t.status.tblValid = s.status.tblValid ∧
        t.params = s.params ∧ t.modulus = s.modulus ∧ t.logn = s.logn ∧ t.psi = s.psi ∧ t.psiInv = s.psiInv ∧
        t.nInv = s.nInv ∧ s.sameX t ∧ s.sameTuple t ∧ s.sameMemory t ∧ s.succeeded t 0)

/-- 47_crt_reconstructor.md R175, R179: `COMPOSE` checks the tuple and writes the exact sum reduced modulo `BIGM`, which is
the one value below `BIGM` with these residues. -/
def Obligations.ComposeReconstructsValue : Prop :=
  ∀ (s : State) (ra : RegNum), s.Inv →
    decode (0x72#8 ++ (ra ++ 0#20)) = .ok (.compose ra) ∧
    (s.status.crtValid = false → s.rejects (.compose ra) 9) ∧
    (s.status.crtValid = true → (∃ i < s.k, s.getLimb i ≤ s.getT i) → s.rejects (.compose ra) 10) ∧
    (s.status.crtValid = true → (∀ i < s.k, s.getT i < s.getLimb i) →
      ∃ t v, exec (.compose ra) s = .next t ∧ s.onlyX t ra v ∧
        v = (∑ i ∈ Finset.range s.k, s.getT i * s.getCrte i) % s.bigM ∧
        v < s.bigM ∧ (∀ i < s.k, v % s.getLimb i = s.getT i) ∧
        ∀ u < s.bigM, (∀ i < s.k, u % s.getLimb i = s.getT i) → u = v)

/-! ## rns_composer -/

/-- 48_rns_composer.md R186: `DECOMP` needs valid CRT state and writes the residues of any register value. -/
def Obligations.DecompWritesResidues : Prop :=
  ∀ (s : State) (ra : RegNum),
    decode (0x80#8 ++ (ra ++ 0#20)) = .ok (.decomp ra) ∧
    (s.status.crtValid = false → s.rejects (.decomp ra) 9) ∧
    (s.status.crtValid = true →
      ∃ t, exec (.decomp ra) s = .next t ∧
        s.onlyTuple t (fun i => i < s.k) (fun i => s.getX ra % s.getLimb i))

/-- 47_crt_reconstructor.md R180: the CRT round trip, both ways, also for values of `BIGM` and above. -/
def Obligations.CrtRoundTrip : Prop :=
  ∀ (s : State) (ra rd : RegNum), s.Inv → s.status.crtValid = true →
    (∃ t u, exec (.decomp ra) s = .next t ∧ t.status.err = 0 ∧ exec (.compose rd) t = .next u ∧
      u.status.err = 0 ∧ u.getX rd = s.getX ra % s.bigM ∧ (s.getX ra < s.bigM → u.getX rd = s.getX ra)) ∧
    ((∀ i < s.k, s.getT i < s.getLimb i) →
      ∃ t u, exec (.compose rd) s = .next t ∧ t.status.err = 0 ∧ exec (.decomp rd) t = .next u ∧
        u.status.err = 0 ∧ s.sameTuple u)

/-- 48_rns_composer.md R188: `RESCALE` succeeds exactly when `to` is the product of a non-empty subset of the limbs, and
then writes the value divided by the removed limbs' product with rounding, reduced modulo `to`. -/
def Obligations.RescaleSwitchesModulus : Prop :=
  ∀ (s : State) (ra rb : RegNum), s.Inv →
    decode (0x81#8 ++ (ra ++ (rb ++ 0#16))) = .ok (.rescale ra rb) ∧
    (s.status.crtValid = false → s.rejects (.rescale ra rb) 9) ∧
    (s.status.crtValid = true → (∃ i < s.k, s.getLimb i ≤ s.getT i) → s.rejects (.rescale ra rb) 10) ∧
    (s.status.crtValid = true → (∀ i < s.k, s.getT i < s.getLimb i) →
      (¬ ∃ I ⊆ Finset.range s.k, I.Nonempty ∧ ∏ i ∈ I, s.getLimb i = s.getX rb) → s.rejects (.rescale ra rb) 7) ∧
    (∀ I ⊆ Finset.range s.k, s.status.crtValid = true → (∀ i < s.k, s.getT i < s.getLimb i) → I.Nonempty →
      ∏ i ∈ I, s.getLimb i = s.getX rb →
      ∃ t v d v2, exec (.rescale ra rb) s = .next t ∧
        v = (∑ i ∈ Finset.range s.k, s.getT i * s.getCrte i) % s.bigM ∧
        d = ∏ i ∈ Finset.range s.k \ I, s.getLimb i ∧ v2 = (v + d / 2) / d % s.getX rb ∧
        t.getX ra = v2 ∧ (∀ r, r ≠ ra → t.getX r = s.getX r) ∧
        (∀ i ∈ I, t.getT i = v2 % s.getLimb i) ∧ (∀ i < s.k, i ∉ I → t.getT i = 0) ∧
        (∀ i, s.k ≤ i → t.getT i = s.getT i) ∧
        s.sameMemory t ∧ s.sameCsrs t ∧ s.sameValid t ∧ s.succeeded t 0)

/-- 48_rns_composer.md R189: the laws of a rescaling that succeeds. -/
def Obligations.RescaleLaws : Prop :=
  ∀ (s t : State) (ra rb : RegNum) (v q : Nat) (I : Finset Nat), s.Inv → s.status.crtValid = true →
    I ⊆ Finset.range s.k → I.Nonempty → ∏ i ∈ I, s.getLimb i = s.getX rb →
    v < s.bigM → (∀ i < s.k, s.getT i = v % s.getLimb i) →
    q = (v + s.bigM / s.getX rb / 2) / (s.bigM / s.getX rb) →
    exec (.rescale ra rb) s = .next t →
      t.getX ra = q % s.getX rb ∧ t.getX ra < s.getX rb ∧
      (-(s.bigM / s.getX rb / 2 : Nat) : Int) ≤ v - q * (s.bigM / s.getX rb : Nat) ∧
      ((v : Int) - q * (s.bigM / s.getX rb : Nat) ≤ ((s.bigM / s.getX rb - 1) / 2 : Nat)) ∧
      q ≤ s.getX rb ∧
      (q = s.getX rb → s.bigM - s.bigM / s.getX rb / 2 ≤ v ∧ t.getX ra = 0) ∧
      (s.getX rb = s.bigM → t.getX ra = v ∧ s.sameTuple t) ∧
      (∀ i ∈ I, t.getT i < s.getLimb i) ∧
      (∀ u < s.getX rb, (∀ i ∈ I, u % s.getLimb i = t.getT i) → u = t.getX ra)
end

