-- ==== Sys2Proof/Laws/Arith.lean ====
section
/-! SUPPORT. What the reference functions of 00_scope.md R13 to R17 compute, said once for each. -/

namespace Sys2Proof.Laws

open Sys2Proof Sys2Proof.Machine

/-! Powers -/

theorem modpowAux_eq (m fuel a e : Nat) (h : e < 2 ^ fuel) : modpowAux m fuel a e = a ^ e % m := by
  induction fuel generalizing a e with
  | zero =>
    have : e = 0 := by simpa using h
    simp [modpowAux, this]
  | succ fuel ih =>
    have h2 : e / 2 < 2 ^ fuel := by rw [pow_succ] at h; omega
    unfold modpowAux
    by_cases h0 : e = 0
    · simp [h0]
    · rw [if_neg h0, ih _ _ h2, ← Nat.pow_mod, ← pow_two, ← pow_mul]
      by_cases h1 : e % 2 = 1
      · have he : a ^ e = a * a ^ (2 * (e / 2)) := by
          rw [← pow_succ']; congr 1; omega
        rw [if_pos h1, he, Nat.mul_mod, Nat.mod_mod, ← Nat.mul_mod]
      · have he : 2 * (e / 2) = e := by omega
        rw [if_neg h1, he]

/-- `modpow(a, e, m) = (a ^ e) mod m` (R13). -/
theorem modpow_eq (a e m : Nat) : modpow a e m = a ^ e % m := by
  unfold modpow
  rw [modpowAux_eq _ _ _ _ Nat.lt_log2_self, ← Nat.pow_mod]

/-! Inverses -/

/-- Along extended Euclid, the coefficient `c` returned satisfies `c * a ≡ gcd` modulo `m`. -/
theorem egcdCoeff_spec (a m : Nat) (fuel r0 r1 : Nat) (c0 c1 : Int) (hf : r1 < fuel)
    (h0 : (c0 * a - r0 : Int) % m = 0) (h1 : (c1 * a - r1 : Int) % m = 0) :
    (egcdCoeff fuel r0 r1 c0 c1 * a - Nat.gcd r0 r1 : Int) % m = 0 := by
  induction fuel generalizing r0 r1 c0 c1 with
  | zero => omega
  | succ fuel ih =>
    cases r1 with
    | zero => simpa [egcdCoeff] using h0
    | succ r =>
      have hlt : r0 % (r + 1) < fuel := lt_of_lt_of_le (Nat.mod_lt _ (Nat.succ_pos r)) (by omega)
      rw [egcdCoeff, Nat.gcd_comm, Nat.gcd_rec, Nat.gcd_comm]
      refine ih _ _ _ _ hlt h1 ?_
      have hd : ((r0 % (r + 1) : Nat) : Int) = r0 - (r + 1 : Nat) * (r0 / (r + 1) : Nat) := by
        have := Nat.div_add_mod r0 (r + 1)
        have h' : ((r + 1 : Nat) * (r0 / (r + 1) : Nat) + (r0 % (r + 1) : Nat) : Int) = r0 := by exact_mod_cast this
        linarith
      have e0 : (m : Int) ∣ c0 * a - r0 := Int.dvd_of_emod_eq_zero h0
      have e1 : (m : Int) ∣ c1 * a - (r + 1 : Nat) := Int.dvd_of_emod_eq_zero h1
      apply Int.emod_eq_zero_of_dvd
      have : ((c0 - (r0 / (r + 1) : Nat) * c1) * a - (r0 % (r + 1) : Nat) : Int)
          = (c0 * a - r0) - (r0 / (r + 1) : Nat) * (c1 * a - (r + 1 : Nat)) := by rw [hd]; ring
      rw [this]
      exact dvd_sub e0 (Dvd.dvd.mul_left e1 _)

/-- `modinv(a, m)` is below `m`. -/
theorem modinv_lt (a m : Nat) (hm : 0 < m) : modinv a m < m := by
  have hm' : (0 : Int) < m := by exact_mod_cast hm
  have h1 := Int.emod_lt_of_pos (egcdCoeff (m + 1) a m 1 0) hm'
  have h2 := Int.emod_nonneg (egcdCoeff (m + 1) a m 1 0) (ne_of_gt hm')
  unfold modinv
  omega

/-- `modinv(a, m)` is the inverse of `a` (R13), where there is one. -/
theorem modinv_spec (a m : Nat) (hm : 2 ≤ m) (h : Nat.gcd a m = 1) : a * modinv a m % m = 1 := by
  have hm' : (m : Int) ≠ 0 := by exact_mod_cast (by omega : m ≠ 0)
  have hs := egcdCoeff_spec a m (m + 1) a m 1 0 (by omega) (by simp) (by simp)
  rw [h] at hs
  set c := egcdCoeff (m + 1) a m 1 0 with hc
  have hv : ((modinv a m : Nat) : Int) = c % m := by
    unfold modinv
    rw [← hc, Int.toNat_of_nonneg (Int.emod_nonneg c hm')]
  have key : ((a * modinv a m % m : Nat) : Int) = 1 := by
    push_cast
    rw [hv, Int.mul_emod, Int.emod_emod, ← Int.mul_emod]
    have h1 : (m : Int) ∣ c * a - 1 := Int.dvd_of_emod_eq_zero (by simpa using hs)
    have h2 : ((a : Int) * c) % m = 1 % m := by
      apply Int.emod_emod_of_dvd _ (dvd_refl _) |>.symm.trans
      rw [Int.emod_emod]
      apply Int.emod_eq_emod_iff_emod_sub_eq_zero.2
      have : (a : Int) * c - 1 = c * a - 1 := by ring
      rw [this]
      exact Int.emod_eq_zero_of_dvd h1
    rw [h2]
    exact Int.emod_eq_of_lt (by norm_num) (by exact_mod_cast (by omega : 1 < m))
  exact_mod_cast key

/-- The inverse is unique below `m` (R13). -/
theorem inverse_unique {a m y z : Nat} (hm : 2 ≤ m) (hy : y < m) (hz : z < m) (h1 : a * y % m = 1)
    (h2 : a * z % m = 1) : y = z := by
  have e1 : a * y ≡ 1 [MOD m] := by rw [Nat.ModEq, h1, Nat.mod_eq_of_lt (by omega)]
  have e2 : a * z ≡ 1 [MOD m] := by rw [Nat.ModEq, h2, Nat.mod_eq_of_lt (by omega)]
  have e3 : y * (a * z) ≡ z * (a * y) [MOD m] := by
    have : y * (a * z) = z * (a * y) := by ring
    rw [this]
  have e4 : y ≡ z [MOD m] := by
    have := ((e2.mul_left y).symm.trans e3).trans (e1.mul_left z)
    simpa using this
  rw [Nat.ModEq, Nat.mod_eq_of_lt hy, Nat.mod_eq_of_lt hz] at e4
  exact e4

/-! Primality and roots -/

theorem noDivisorFrom_iff (p fuel d : Nat) (hf : p < d + fuel) (hd : 1 ≤ d) :
    noDivisorFrom p fuel d = true ↔ ∀ e, d ≤ e → e * e ≤ p → ¬ e ∣ p := by
  induction fuel generalizing d with
  | zero =>
    refine ⟨fun _ e h1 h2 => ?_, fun _ => rfl⟩
    nlinarith
  | succ fuel ih =>
    unfold noDivisorFrom
    by_cases h1 : p < d * d
    · rw [if_pos h1]
      refine ⟨fun _ e h2 h3 => ?_, fun _ => rfl⟩
      nlinarith
    · rw [if_neg h1]
      by_cases h2 : p % d = 0
      · rw [if_pos h2]
        constructor
        · intro h; cases h
        · intro h; exact absurd (Nat.dvd_of_mod_eq_zero h2) (h d le_rfl (not_lt.1 h1))
      · rw [if_neg h2, ih (d + 1) (by omega) (by omega)]
        constructor
        · intro h e h3 h4
          rcases Nat.eq_or_lt_of_le h3 with rfl | h5
          · exact fun hdv => h2 (Nat.mod_eq_zero_of_dvd hdv)
          · exact h e h5 h4
        · intro h e h3 h4
          exact h e (by omega) h4

/-- `is_prime` is primality (R13, 92_eei_decisions.md D14). -/
theorem isPrime_iff (p : Nat) : isPrime p = true ↔ p.Prime := by
  unfold isPrime
  rw [Bool.and_eq_true, decide_eq_true_eq, noDivisorFrom_iff p p 2 (by omega) (by norm_num)]
  constructor
  · rintro ⟨h2, h⟩
    by_contra hp
    have h1 : p ≠ 1 := by omega
    exact h p.minFac (Nat.minFac_prime h1).two_le
      (by have := Nat.minFac_sq_le_self (by omega) hp; rwa [sq] at this) (Nat.minFac_dvd p)
  · intro hp
    refine ⟨hp.two_le, fun e he hee hdv => ?_⟩
    rcases (Nat.dvd_prime hp).1 hdv with h | h
    · omega
    · have := hp.two_le
      subst h
      nlinarith

/-- `is_root(psi, n, p)` (R13). -/
theorem isRoot_iff (psi n p : Nat) :
    isRoot psi n p = true ↔ 1 ≤ psi ∧ psi < p ∧ psi ^ n % p = p - 1 := by
  simp [isRoot, modpow_eq, and_assoc]

theorem leastRootFrom_some {n p fuel c psi : Nat} (h : leastRootFrom n p fuel c = some psi) :
    isRoot psi n p = true ∧ c ≤ psi ∧ ∀ d, c ≤ d → d < psi → isRoot d n p = false := by
  induction fuel generalizing c with
  | zero => simp [leastRootFrom] at h
  | succ fuel ih =>
    unfold leastRootFrom at h
    split at h
    · rename_i hc
      cases h
      exact ⟨hc, le_rfl, fun d h1 h2 => by omega⟩
    · rename_i hc
      obtain ⟨h1, h2, h3⟩ := ih h
      refine ⟨h1, by omega, fun d h4 h5 => ?_⟩
      rcases Nat.eq_or_lt_of_le h4 with rfl | h6
      · simpa using hc
      · exact h3 d h6 h5

theorem leastRootFrom_none {n p fuel c : Nat} (h : leastRootFrom n p fuel c = none) :
    ∀ d, c ≤ d → d < c + fuel → isRoot d n p = false := by
  induction fuel generalizing c with
  | zero => intro d h1 h2; omega
  | succ fuel ih =>
    unfold leastRootFrom at h
    split at h
    · cases h
    · rename_i hc
      intro d h1 h2
      rcases Nat.eq_or_lt_of_le h1 with rfl | h3
      · simpa using hc
      · exact ih h d h3 (by omega)

/-- The reference choice is a root, and no smaller number is one (44_twiddle_rom.md R146). -/
theorem leastRoot_some {n p psi : Nat} (h : leastRoot n p = some psi) :
    isRoot psi n p = true ∧ ∀ d, 1 ≤ d → d < psi → isRoot d n p = false :=
  ⟨(leastRootFrom_some h).1, fun d h1 h2 => (leastRootFrom_some h).2.2 d h1 h2⟩

/-- Without a reference choice there is no root at all. -/
theorem leastRoot_none {n p : Nat} (h : leastRoot n p = none) (psi : Nat) : isRoot psi n p = false := by
  by_contra hr
  have hr' : isRoot psi n p = true := by simpa using hr
  obtain ⟨h1, h2, _⟩ := (isRoot_iff psi n p).1 hr'
  have := leastRootFrom_none h psi h1 (by omega)
  rw [this] at hr'
  cases hr'

/-- Whatever the instance's table holds, `PSI_SELECT` answers a root (R146). -/
theorem psiSelect_some {P : Params} {n p psi : Nat} (h : psiSelect P n p = some psi) : isRoot psi n p = true := by
  unfold psiSelect at h
  split at h
  · rename_i e he
    cases h
    have := List.find?_some he
    simp only [Bool.and_eq_true] at this
    exact this.2
  · exact (leastRoot_some h).1

/-- `PSI_SELECT` answers nothing only where there is no root (R146). -/
theorem psiSelect_none {P : Params} {n p : Nat} (h : psiSelect P n p = none) (psi : Nat) : isRoot psi n p = false := by
  unfold psiSelect at h
  split at h
  · cases h
  · exact leastRoot_none h psi

/-! Sums, products, limbs -/

theorem sumBelow_eq (f : Nat → Nat) (n : Nat) : sumBelow f n = ∑ i ∈ Finset.range n, f i := by
  induction n with
  | zero => rfl
  | succ n ih => rw [sumBelow, ih, Finset.sum_range_succ]

theorem foldl_mul (ms : List Nat) (c : Nat) : ms.foldl (· * ·) c = c * ms.prod := by
  induction ms generalizing c with
  | nil => simp
  | cons m ms ih => simp [ih, mul_assoc]

theorem foldl_add (vs : List Nat) (c : Nat) : vs.foldl (· + ·) c = c + vs.sum := by
  induction vs generalizing c with
  | nil => simp
  | cons v vs ih => simp [ih, add_assoc]

theorem product_eq (ms : List Nat) : product ms = ms.prod := by
  simp [product, foldl_mul]

theorem compose_eq (ts es : List Nat) (m : Nat) : compose ts es m = (List.zipWith (· * ·) ts es).sum % m := by
  simp [compose, foldl_add]

theorem pairwiseCoprime_iff (ms : List Nat) : pairwiseCoprime ms = true ↔ ms.Pairwise Nat.Coprime := by
  induction ms with
  | nil => simp [pairwiseCoprime]
  | cons m ms ih => simp [pairwiseCoprime, ih, List.pairwise_cons, Nat.Coprime]

/-! Lengths -/

@[simp] theorem permuteWords_length (l : Nat) (c : List Nat) : (permuteWords l c).length = 2 ^ l := by
  simp [permuteWords]

@[simp] theorem nttStage_length (rom : Nat → Nat) (dir : Dir) (n p s : Nat) (c : List Nat) :
    (nttStage rom dir n p s c).length = n := by
  simp [nttStage]

@[simp] theorem twistWords_length (rom : Nat → Nat) (n p : Nat) (c : List Nat) :
    (twistWords rom n p c).length = n := by
  simp [twistWords]

@[simp] theorem untwistWords_length (rom : Nat → Nat) (n p : Nat) (c : List Nat) :
    (untwistWords rom n p c).length = n := by
  simp [untwistWords]

@[simp] theorem scaleWords_length (v n p : Nat) (c : List Nat) : (scaleWords v n p c).length = n := by
  simp [scaleWords]

/-- The first `k` stages, one after another. -/
theorem nttCore_eq (rom : Nat → Nat) (dir : Dir) (l p : Nat) (c : List Nat) :
    nttCore rom dir l p c =
      (List.range l).foldl (fun c s => nttStage rom dir (2 ^ l) p (s + 1) c) (permuteWords l c) := rfl

@[simp] theorem nttCore_length (rom : Nat → Nat) (dir : Dir) (l p : Nat) (c : List Nat) :
    (nttCore rom dir l p c).length = 2 ^ l := by
  unfold nttCore
  cases l with
  | zero => simp
  | succ l => rw [List.range_succ, List.foldl_append]; simp

@[simp] theorem forwardWords_length (rom : Nat → Nat) (l p : Nat) (c : List Nat) :
    (forwardWords rom l p c).length = 2 ^ l := by
  simp [forwardWords]

@[simp] theorem inverseWords_length (rom : Nat → Nat) (v l p : Nat) (c : List Nat) :
    (inverseWords rom v l p c).length = 2 ^ l := by
  simp [inverseWords]

/-! Results are canonical -/

theorem modadd_lt (a b : Nat) {m : Nat} (h : 0 < m) : modadd a b m < m := Nat.mod_lt _ h
theorem modsub_lt (a b : Nat) {m : Nat} (h : 0 < m) : modsub a b m < m := Nat.mod_lt _ h
theorem modneg_lt (a : Nat) {m : Nat} (h : 0 < m) : modneg a m < m := Nat.mod_lt _ h
theorem modmul_lt (a b : Nat) {m : Nat} (h : 0 < m) : modmul a b m < m := Nat.mod_lt _ h

theorem modpow_lt (a e : Nat) {m : Nat} (h : 0 < m) : modpow a e m < m := by
  rw [modpow_eq]; exact Nat.mod_lt _ h

end Sys2Proof.Laws
end

