-- ==== Sys2Proof/Laws/Encoding.lean ====
section
/-! SUPPORT. The fields of an encoded word, once per layout (30_encoding.md R81). -/

namespace Sys2Proof.Laws

open Sys2Proof

theorem opField_encodeReg (op : BitVec 8) (ra rb rc : BitVec 4) : opField (encodeReg op ra rb rc) = op := by
  apply BitVec.eq_of_getLsbD_eq
  intro i hi
  simp only [opField, encodeReg, BitVec.getLsbD_extractLsb', BitVec.getLsbD_append]
  simp [hi]

theorem raField_encodeReg (op : BitVec 8) (ra rb rc : BitVec 4) : raField (encodeReg op ra rb rc) = ra := by
  apply BitVec.eq_of_getLsbD_eq
  intro i hi
  have h24 : 20 + i < 24 := by omega
  simp only [raField, encodeReg, BitVec.getLsbD_extractLsb', BitVec.getLsbD_append]
  simp [hi, h24]

theorem rbField_encodeReg (op : BitVec 8) (ra rb rc : BitVec 4) : rbField (encodeReg op ra rb rc) = rb := by
  apply BitVec.eq_of_getLsbD_eq
  intro i hi
  have h24 : 16 + i < 24 := by omega
  have h20 : 16 + i < 20 := by omega
  simp only [rbField, encodeReg, BitVec.getLsbD_extractLsb', BitVec.getLsbD_append]
  simp [hi, h24, h20]

theorem rcField_encodeReg (op : BitVec 8) (ra rb rc : BitVec 4) : rcField (encodeReg op ra rb rc) = rc := by
  apply BitVec.eq_of_getLsbD_eq
  intro i hi
  have h24 : 12 + i < 24 := by omega
  have h20 : 12 + i < 20 := by omega
  have h16 : 12 + i < 16 := by omega
  simp only [rcField, encodeReg, BitVec.getLsbD_extractLsb', BitVec.getLsbD_append]
  simp [hi, h24, h20, h16]

theorem z12Field_encodeReg (op : BitVec 8) (ra rb rc : BitVec 4) : z12Field (encodeReg op ra rb rc) = 0 := by
  apply BitVec.eq_of_getLsbD_eq
  intro i hi
  have h24 : i < 24 := by omega
  have h20 : i < 20 := by omega
  have h16 : i < 16 := by omega
  simp only [z12Field, encodeReg, BitVec.getLsbD_extractLsb', BitVec.getLsbD_append]
  simp [hi, h24, h20, h16]

theorem immField_encodeReg (op : BitVec 8) (ra rb rc : BitVec 4) : immField (encodeReg op ra rb rc) = rc ++ (0 : BitVec 12) := by
  apply BitVec.eq_of_getLsbD_eq
  intro i hi
  have h24 : i < 24 := by omega
  have h20 : i < 20 := by omega
  simp only [immField, encodeReg, BitVec.getLsbD_extractLsb', BitVec.getLsbD_append]
  simp [hi, h24, h20]

theorem opField_encodeImm (op : BitVec 8) (ra rb : BitVec 4) (imm : Imm16) : opField (encodeImm op ra rb imm) = op := by
  apply BitVec.eq_of_getLsbD_eq
  intro i hi
  simp only [opField, encodeImm, BitVec.getLsbD_extractLsb', BitVec.getLsbD_append]
  simp [hi]

theorem raField_encodeImm (op : BitVec 8) (ra rb : BitVec 4) (imm : Imm16) : raField (encodeImm op ra rb imm) = ra := by
  apply BitVec.eq_of_getLsbD_eq
  intro i hi
  have h24 : 20 + i < 24 := by omega
  simp only [raField, encodeImm, BitVec.getLsbD_extractLsb', BitVec.getLsbD_append]
  simp [hi, h24]

theorem rbField_encodeImm (op : BitVec 8) (ra rb : BitVec 4) (imm : Imm16) : rbField (encodeImm op ra rb imm) = rb := by
  apply BitVec.eq_of_getLsbD_eq
  intro i hi
  have h24 : 16 + i < 24 := by omega
  have h20 : 16 + i < 20 := by omega
  simp only [rbField, encodeImm, BitVec.getLsbD_extractLsb', BitVec.getLsbD_append]
  simp [hi, h24, h20]

theorem immField_encodeImm (op : BitVec 8) (ra rb : BitVec 4) (imm : Imm16) : immField (encodeImm op ra rb imm) = imm := by
  apply BitVec.eq_of_getLsbD_eq
  intro i hi
  have h24 : i < 24 := by omega
  have h20 : i < 20 := by omega
  simp only [immField, encodeImm, BitVec.getLsbD_extractLsb', BitVec.getLsbD_append]
  simp [hi, h24, h20]

/-- Bits are masked field by field. -/
theorem encodeImm_and (o p : BitVec 8) (a b c d : BitVec 4) (i j : Imm16) :
    encodeImm o a b i &&& encodeImm p c d j = encodeImm (o &&& p) (a &&& c) (b &&& d) (i &&& j) := by
  apply BitVec.eq_of_getLsbD_eq
  intro k hk
  simp only [encodeImm, BitVec.getLsbD_and, BitVec.getLsbD_append]
  by_cases h1 : k < 16 <;> by_cases h2 : k < 20 <;> by_cases h3 : k < 24 <;> simp [h1, h2, h3]

/-- Two words are equal exactly when their fields are. -/
theorem encodeImm_inj {o p : BitVec 8} {a b c d : BitVec 4} {i j : Imm16} :
    encodeImm o a b i = encodeImm p c d j ↔ o = p ∧ a = c ∧ b = d ∧ i = j := by
  constructor
  · intro h
    refine ⟨?_, ?_, ?_, ?_⟩
    · rw [← opField_encodeImm o a b i, h, opField_encodeImm]
    · rw [← raField_encodeImm o a b i, h, raField_encodeImm]
    · rw [← rbField_encodeImm o a b i, h, rbField_encodeImm]
    · rw [← immField_encodeImm o a b i, h, immField_encodeImm]
  · rintro ⟨rfl, rfl, rfl, rfl⟩; rfl

/-- A word is made of its fields. -/
theorem encodeImm_fields (w : CmdWord) : encodeImm (opField w) (raField w) (rbField w) (immField w) = w := by
  apply BitVec.eq_of_getLsbD_eq
  intro i hi
  simp only [encodeImm, opField, raField, rbField, immField, BitVec.getLsbD_extractLsb', BitVec.getLsbD_append]
  by_cases h1 : i < 16
  · have : i < 20 := by omega
    have : i < 24 := by omega
    simp [*]
  · by_cases h2 : i < 20
    · have h3 : i < 24 := by omega
      have h4 : i - 16 < 4 := by omega
      have h5 : 16 + (i - 16) = i := by omega
      simp [h1, h2, h3, h4, h5]
    · by_cases h3 : i < 24
      · have h4 : i - 20 < 4 := by omega
        have h5 : 20 + (i - 20) = i := by omega
        simp [h2, h3, h4, h5]
      · have h4 : i - 24 < 8 := by omega
        have h5 : 24 + (i - 24) = i := by omega
        simp [h3, h4, h5]

end Sys2Proof.Laws
end

