-- ==== Sys2Proof/Laws/State.lean ====
section
/-! SUPPORT. One lemma per field and accessor of the state per update, each true by rfl. -/

namespace Sys2Proof.Machine

open Sys2Proof

/-! `STATUS` -/

@[simp] theorem Status.failed_ctxValid (st : Status) (e : Err) : (st.failed e).ctxValid = st.ctxValid := rfl
@[simp] theorem Status.failed_tblValid (st : Status) (e : Err) : (st.failed e).tblValid = st.tblValid := rfl
@[simp] theorem Status.failed_crtValid (st : Status) (e : Err) : (st.failed e).crtValid = st.crtValid := rfl
@[simp] theorem Status.failed_sticky (st : Status) (e : Err) : (st.failed e).sticky = true := rfl
@[simp] theorem Status.failed_err (st : Status) (e : Err) : (st.failed e).err = e.code := rfl
@[simp] theorem Status.succeeded_ctxValid (st : Status) : st.succeeded.ctxValid = st.ctxValid := rfl
@[simp] theorem Status.succeeded_tblValid (st : Status) : st.succeeded.tblValid = st.tblValid := rfl
@[simp] theorem Status.succeeded_crtValid (st : Status) : st.succeeded.crtValid = st.crtValid := rfl
@[simp] theorem Status.succeeded_sticky (st : Status) : st.succeeded.sticky = st.sticky := rfl
@[simp] theorem Status.succeeded_err (st : Status) : st.succeeded.err = 0 := rfl

/-! `setX` -/

@[simp] theorem State.setX_params (s : State) (r : RegNum) (v : Nat) : (s.setX r v).params = s.params := rfl
@[simp] theorem State.setX_x (s : State) (r : RegNum) (v : Nat) : (s.setX r v).x = s.x.set r.toNat v r.isLt := rfl
@[simp] theorem State.setX_t (s : State) (r : RegNum) (v : Nat) : (s.setX r v).t = s.t := rfl
@[simp] theorem State.setX_bufs (s : State) (r : RegNum) (v : Nat) : (s.setX r v).bufs = s.bufs := rfl
@[simp] theorem State.setX_rom (s : State) (r : RegNum) (v : Nat) : (s.setX r v).rom = s.rom := rfl
@[simp] theorem State.setX_status (s : State) (r : RegNum) (v : Nat) : (s.setX r v).status = s.status := rfl
@[simp] theorem State.setX_modulus (s : State) (r : RegNum) (v : Nat) : (s.setX r v).modulus = s.modulus := rfl
@[simp] theorem State.setX_logn (s : State) (r : RegNum) (v : Nat) : (s.setX r v).logn = s.logn := rfl
@[simp] theorem State.setX_psi (s : State) (r : RegNum) (v : Nat) : (s.setX r v).psi = s.psi := rfl
@[simp] theorem State.setX_psiInv (s : State) (r : RegNum) (v : Nat) : (s.setX r v).psiInv = s.psiInv := rfl
@[simp] theorem State.setX_nInv (s : State) (r : RegNum) (v : Nat) : (s.setX r v).nInv = s.nInv := rfl
@[simp] theorem State.setX_k (s : State) (r : RegNum) (v : Nat) : (s.setX r v).k = s.k := rfl
@[simp] theorem State.setX_bigM (s : State) (r : RegNum) (v : Nat) : (s.setX r v).bigM = s.bigM := rfl
@[simp] theorem State.setX_limb (s : State) (r : RegNum) (v : Nat) : (s.setX r v).limb = s.limb := rfl
@[simp] theorem State.setX_crte (s : State) (r : RegNum) (v : Nat) : (s.setX r v).crte = s.crte := rfl
@[simp] theorem State.setX_pending (s : State) (r : RegNum) (v : Nat) : (s.setX r v).pending = s.pending := rfl
@[simp] theorem State.setX_wdata (s : State) (r : RegNum) (v : Nat) : (s.setX r v).wdata = s.wdata := rfl
@[simp] theorem State.setX_responses (s : State) (r : RegNum) (v : Nat) : (s.setX r v).responses = s.responses := rfl
@[simp] theorem State.setX_resets (s : State) (r : RegNum) (v : Nat) : (s.setX r v).resets = s.resets := rfl
@[simp] theorem State.setX_getT (s : State) (r : RegNum) (v : Nat) (j : Nat) : (s.setX r v).getT j = s.getT j := rfl
@[simp] theorem State.setX_getLimb (s : State) (r : RegNum) (v : Nat) (j : Nat) : (s.setX r v).getLimb j = s.getLimb j := rfl
@[simp] theorem State.setX_getCrte (s : State) (r : RegNum) (v : Nat) (j : Nat) : (s.setX r v).getCrte j = s.getCrte j := rfl
@[simp] theorem State.setX_bufWord (s : State) (r : RegNum) (v : Nat) (q : BufNum) (j : Nat) : (s.setX r v).bufWord q j = s.bufWord q j := rfl
@[simp] theorem State.setX_romWord (s : State) (r : RegNum) (v : Nat) (j : Nat) : (s.setX r v).romWord j = s.romWord j := rfl
@[simp] theorem State.setX_n (s : State) (r : RegNum) (v : Nat) : (s.setX r v).n = s.n := rfl

/-! `setT` -/

@[simp] theorem State.setT_params (s : State) (i v : Nat) : (s.setT i v).params = s.params := rfl
@[simp] theorem State.setT_x (s : State) (i v : Nat) : (s.setT i v).x = s.x := rfl
@[simp] theorem State.setT_t (s : State) (i v : Nat) : (s.setT i v).t = s.t.set i v := rfl
@[simp] theorem State.setT_bufs (s : State) (i v : Nat) : (s.setT i v).bufs = s.bufs := rfl
@[simp] theorem State.setT_rom (s : State) (i v : Nat) : (s.setT i v).rom = s.rom := rfl
@[simp] theorem State.setT_status (s : State) (i v : Nat) : (s.setT i v).status = s.status := rfl
@[simp] theorem State.setT_modulus (s : State) (i v : Nat) : (s.setT i v).modulus = s.modulus := rfl
@[simp] theorem State.setT_logn (s : State) (i v : Nat) : (s.setT i v).logn = s.logn := rfl
@[simp] theorem State.setT_psi (s : State) (i v : Nat) : (s.setT i v).psi = s.psi := rfl
@[simp] theorem State.setT_psiInv (s : State) (i v : Nat) : (s.setT i v).psiInv = s.psiInv := rfl
@[simp] theorem State.setT_nInv (s : State) (i v : Nat) : (s.setT i v).nInv = s.nInv := rfl
@[simp] theorem State.setT_k (s : State) (i v : Nat) : (s.setT i v).k = s.k := rfl
@[simp] theorem State.setT_bigM (s : State) (i v : Nat) : (s.setT i v).bigM = s.bigM := rfl
@[simp] theorem State.setT_limb (s : State) (i v : Nat) : (s.setT i v).limb = s.limb := rfl
@[simp] theorem State.setT_crte (s : State) (i v : Nat) : (s.setT i v).crte = s.crte := rfl
@[simp] theorem State.setT_pending (s : State) (i v : Nat) : (s.setT i v).pending = s.pending := rfl
@[simp] theorem State.setT_wdata (s : State) (i v : Nat) : (s.setT i v).wdata = s.wdata := rfl
@[simp] theorem State.setT_responses (s : State) (i v : Nat) : (s.setT i v).responses = s.responses := rfl
@[simp] theorem State.setT_resets (s : State) (i v : Nat) : (s.setT i v).resets = s.resets := rfl
@[simp] theorem State.setT_getX (s : State) (i v : Nat) (q : RegNum) : (s.setT i v).getX q = s.getX q := rfl
@[simp] theorem State.setT_getLimb (s : State) (i v : Nat) (j : Nat) : (s.setT i v).getLimb j = s.getLimb j := rfl
@[simp] theorem State.setT_getCrte (s : State) (i v : Nat) (j : Nat) : (s.setT i v).getCrte j = s.getCrte j := rfl
@[simp] theorem State.setT_bufWord (s : State) (i v : Nat) (q : BufNum) (j : Nat) : (s.setT i v).bufWord q j = s.bufWord q j := rfl
@[simp] theorem State.setT_romWord (s : State) (i v : Nat) (j : Nat) : (s.setT i v).romWord j = s.romWord j := rfl
@[simp] theorem State.setT_n (s : State) (i v : Nat) : (s.setT i v).n = s.n := rfl

/-! `setTuple` -/

@[simp] theorem State.setTuple_params (s : State) (vs : List Nat) : (s.setTuple vs).params = s.params := rfl
@[simp] theorem State.setTuple_x (s : State) (vs : List Nat) : (s.setTuple vs).x = s.x := rfl
@[simp] theorem State.setTuple_t (s : State) (vs : List Nat) : (s.setTuple vs).t = overwrite vs s.t := rfl
@[simp] theorem State.setTuple_bufs (s : State) (vs : List Nat) : (s.setTuple vs).bufs = s.bufs := rfl
@[simp] theorem State.setTuple_rom (s : State) (vs : List Nat) : (s.setTuple vs).rom = s.rom := rfl
@[simp] theorem State.setTuple_status (s : State) (vs : List Nat) : (s.setTuple vs).status = s.status := rfl
@[simp] theorem State.setTuple_modulus (s : State) (vs : List Nat) : (s.setTuple vs).modulus = s.modulus := rfl
@[simp] theorem State.setTuple_logn (s : State) (vs : List Nat) : (s.setTuple vs).logn = s.logn := rfl
@[simp] theorem State.setTuple_psi (s : State) (vs : List Nat) : (s.setTuple vs).psi = s.psi := rfl
@[simp] theorem State.setTuple_psiInv (s : State) (vs : List Nat) : (s.setTuple vs).psiInv = s.psiInv := rfl
@[simp] theorem State.setTuple_nInv (s : State) (vs : List Nat) : (s.setTuple vs).nInv = s.nInv := rfl
@[simp] theorem State.setTuple_k (s : State) (vs : List Nat) : (s.setTuple vs).k = s.k := rfl
@[simp] theorem State.setTuple_bigM (s : State) (vs : List Nat) : (s.setTuple vs).bigM = s.bigM := rfl
@[simp] theorem State.setTuple_limb (s : State) (vs : List Nat) : (s.setTuple vs).limb = s.limb := rfl
@[simp] theorem State.setTuple_crte (s : State) (vs : List Nat) : (s.setTuple vs).crte = s.crte := rfl
@[simp] theorem State.setTuple_pending (s : State) (vs : List Nat) : (s.setTuple vs).pending = s.pending := rfl
@[simp] theorem State.setTuple_wdata (s : State) (vs : List Nat) : (s.setTuple vs).wdata = s.wdata := rfl
@[simp] theorem State.setTuple_responses (s : State) (vs : List Nat) : (s.setTuple vs).responses = s.responses := rfl
@[simp] theorem State.setTuple_resets (s : State) (vs : List Nat) : (s.setTuple vs).resets = s.resets := rfl
@[simp] theorem State.setTuple_getX (s : State) (vs : List Nat) (q : RegNum) : (s.setTuple vs).getX q = s.getX q := rfl
@[simp] theorem State.setTuple_getLimb (s : State) (vs : List Nat) (j : Nat) : (s.setTuple vs).getLimb j = s.getLimb j := rfl
@[simp] theorem State.setTuple_getCrte (s : State) (vs : List Nat) (j : Nat) : (s.setTuple vs).getCrte j = s.getCrte j := rfl
@[simp] theorem State.setTuple_bufWord (s : State) (vs : List Nat) (q : BufNum) (j : Nat) : (s.setTuple vs).bufWord q j = s.bufWord q j := rfl
@[simp] theorem State.setTuple_romWord (s : State) (vs : List Nat) (j : Nat) : (s.setTuple vs).romWord j = s.romWord j := rfl
@[simp] theorem State.setTuple_n (s : State) (vs : List Nat) : (s.setTuple vs).n = s.n := rfl

/-! `setBufWord` -/

@[simp] theorem State.setBufWord_params (s : State) (b : BufNum) (i v : Nat) : (s.setBufWord b i v).params = s.params := rfl
@[simp] theorem State.setBufWord_x (s : State) (b : BufNum) (i v : Nat) : (s.setBufWord b i v).x = s.x := rfl
@[simp] theorem State.setBufWord_t (s : State) (b : BufNum) (i v : Nat) : (s.setBufWord b i v).t = s.t := rfl
@[simp] theorem State.setBufWord_bufs (s : State) (b : BufNum) (i v : Nat) : (s.setBufWord b i v).bufs = s.bufs.set b.toNat ((s.bufs.getD b.toNat ⟨[]⟩).write i v) := rfl
@[simp] theorem State.setBufWord_rom (s : State) (b : BufNum) (i v : Nat) : (s.setBufWord b i v).rom = s.rom := rfl
@[simp] theorem State.setBufWord_status (s : State) (b : BufNum) (i v : Nat) : (s.setBufWord b i v).status = s.status := rfl
@[simp] theorem State.setBufWord_modulus (s : State) (b : BufNum) (i v : Nat) : (s.setBufWord b i v).modulus = s.modulus := rfl
@[simp] theorem State.setBufWord_logn (s : State) (b : BufNum) (i v : Nat) : (s.setBufWord b i v).logn = s.logn := rfl
@[simp] theorem State.setBufWord_psi (s : State) (b : BufNum) (i v : Nat) : (s.setBufWord b i v).psi = s.psi := rfl
@[simp] theorem State.setBufWord_psiInv (s : State) (b : BufNum) (i v : Nat) : (s.setBufWord b i v).psiInv = s.psiInv := rfl
@[simp] theorem State.setBufWord_nInv (s : State) (b : BufNum) (i v : Nat) : (s.setBufWord b i v).nInv = s.nInv := rfl
@[simp] theorem State.setBufWord_k (s : State) (b : BufNum) (i v : Nat) : (s.setBufWord b i v).k = s.k := rfl
@[simp] theorem State.setBufWord_bigM (s : State) (b : BufNum) (i v : Nat) : (s.setBufWord b i v).bigM = s.bigM := rfl
@[simp] theorem State.setBufWord_limb (s : State) (b : BufNum) (i v : Nat) : (s.setBufWord b i v).limb = s.limb := rfl
@[simp] theorem State.setBufWord_crte (s : State) (b : BufNum) (i v : Nat) : (s.setBufWord b i v).crte = s.crte := rfl
@[simp] theorem State.setBufWord_pending (s : State) (b : BufNum) (i v : Nat) : (s.setBufWord b i v).pending = s.pending := rfl
@[simp] theorem State.setBufWord_wdata (s : State) (b : BufNum) (i v : Nat) : (s.setBufWord b i v).wdata = s.wdata := rfl
@[simp] theorem State.setBufWord_responses (s : State) (b : BufNum) (i v : Nat) : (s.setBufWord b i v).responses = s.responses := rfl
@[simp] theorem State.setBufWord_resets (s : State) (b : BufNum) (i v : Nat) : (s.setBufWord b i v).resets = s.resets := rfl
@[simp] theorem State.setBufWord_getX (s : State) (b : BufNum) (i v : Nat) (q : RegNum) : (s.setBufWord b i v).getX q = s.getX q := rfl
@[simp] theorem State.setBufWord_getT (s : State) (b : BufNum) (i v : Nat) (j : Nat) : (s.setBufWord b i v).getT j = s.getT j := rfl
@[simp] theorem State.setBufWord_getLimb (s : State) (b : BufNum) (i v : Nat) (j : Nat) : (s.setBufWord b i v).getLimb j = s.getLimb j := rfl
@[simp] theorem State.setBufWord_getCrte (s : State) (b : BufNum) (i v : Nat) (j : Nat) : (s.setBufWord b i v).getCrte j = s.getCrte j := rfl
@[simp] theorem State.setBufWord_romWord (s : State) (b : BufNum) (i v : Nat) (j : Nat) : (s.setBufWord b i v).romWord j = s.romWord j := rfl
@[simp] theorem State.setBufWord_n (s : State) (b : BufNum) (i v : Nat) : (s.setBufWord b i v).n = s.n := rfl

/-! `setBufWords` -/

@[simp] theorem State.setBufWords_params (s : State) (b : BufNum) (ws : List Nat) : (s.setBufWords b ws).params = s.params := rfl
@[simp] theorem State.setBufWords_x (s : State) (b : BufNum) (ws : List Nat) : (s.setBufWords b ws).x = s.x := rfl
@[simp] theorem State.setBufWords_t (s : State) (b : BufNum) (ws : List Nat) : (s.setBufWords b ws).t = s.t := rfl
@[simp] theorem State.setBufWords_bufs (s : State) (b : BufNum) (ws : List Nat) : (s.setBufWords b ws).bufs = s.bufs.set b.toNat ((s.bufs.getD b.toNat ⟨[]⟩).writePrefix ws) := rfl
@[simp] theorem State.setBufWords_rom (s : State) (b : BufNum) (ws : List Nat) : (s.setBufWords b ws).rom = s.rom := rfl
@[simp] theorem State.setBufWords_status (s : State) (b : BufNum) (ws : List Nat) : (s.setBufWords b ws).status = s.status := rfl
@[simp] theorem State.setBufWords_modulus (s : State) (b : BufNum) (ws : List Nat) : (s.setBufWords b ws).modulus = s.modulus := rfl
@[simp] theorem State.setBufWords_logn (s : State) (b : BufNum) (ws : List Nat) : (s.setBufWords b ws).logn = s.logn := rfl
@[simp] theorem State.setBufWords_psi (s : State) (b : BufNum) (ws : List Nat) : (s.setBufWords b ws).psi = s.psi := rfl
@[simp] theorem State.setBufWords_psiInv (s : State) (b : BufNum) (ws : List Nat) : (s.setBufWords b ws).psiInv = s.psiInv := rfl
@[simp] theorem State.setBufWords_nInv (s : State) (b : BufNum) (ws : List Nat) : (s.setBufWords b ws).nInv = s.nInv := rfl
@[simp] theorem State.setBufWords_k (s : State) (b : BufNum) (ws : List Nat) : (s.setBufWords b ws).k = s.k := rfl
@[simp] theorem State.setBufWords_bigM (s : State) (b : BufNum) (ws : List Nat) : (s.setBufWords b ws).bigM = s.bigM := rfl
@[simp] theorem State.setBufWords_limb (s : State) (b : BufNum) (ws : List Nat) : (s.setBufWords b ws).limb = s.limb := rfl
@[simp] theorem State.setBufWords_crte (s : State) (b : BufNum) (ws : List Nat) : (s.setBufWords b ws).crte = s.crte := rfl
@[simp] theorem State.setBufWords_pending (s : State) (b : BufNum) (ws : List Nat) : (s.setBufWords b ws).pending = s.pending := rfl
@[simp] theorem State.setBufWords_wdata (s : State) (b : BufNum) (ws : List Nat) : (s.setBufWords b ws).wdata = s.wdata := rfl
@[simp] theorem State.setBufWords_responses (s : State) (b : BufNum) (ws : List Nat) : (s.setBufWords b ws).responses = s.responses := rfl
@[simp] theorem State.setBufWords_resets (s : State) (b : BufNum) (ws : List Nat) : (s.setBufWords b ws).resets = s.resets := rfl
@[simp] theorem State.setBufWords_getX (s : State) (b : BufNum) (ws : List Nat) (q : RegNum) : (s.setBufWords b ws).getX q = s.getX q := rfl
@[simp] theorem State.setBufWords_getT (s : State) (b : BufNum) (ws : List Nat) (j : Nat) : (s.setBufWords b ws).getT j = s.getT j := rfl
@[simp] theorem State.setBufWords_getLimb (s : State) (b : BufNum) (ws : List Nat) (j : Nat) : (s.setBufWords b ws).getLimb j = s.getLimb j := rfl
@[simp] theorem State.setBufWords_getCrte (s : State) (b : BufNum) (ws : List Nat) (j : Nat) : (s.setBufWords b ws).getCrte j = s.getCrte j := rfl
@[simp] theorem State.setBufWords_romWord (s : State) (b : BufNum) (ws : List Nat) (j : Nat) : (s.setBufWords b ws).romWord j = s.romWord j := rfl
@[simp] theorem State.setBufWords_n (s : State) (b : BufNum) (ws : List Nat) : (s.setBufWords b ws).n = s.n := rfl

/-! `setContext` -/

@[simp] theorem State.setContext_params (s : State) (m l : Nat) : (s.setContext m l).params = s.params := rfl
@[simp] theorem State.setContext_x (s : State) (m l : Nat) : (s.setContext m l).x = s.x := rfl
@[simp] theorem State.setContext_t (s : State) (m l : Nat) : (s.setContext m l).t = s.t := rfl
@[simp] theorem State.setContext_bufs (s : State) (m l : Nat) : (s.setContext m l).bufs = s.bufs := rfl
@[simp] theorem State.setContext_rom (s : State) (m l : Nat) : (s.setContext m l).rom = s.rom := rfl
@[simp] theorem State.setContext_modulus (s : State) (m l : Nat) : (s.setContext m l).modulus = m := rfl
@[simp] theorem State.setContext_logn (s : State) (m l : Nat) : (s.setContext m l).logn = l := rfl
@[simp] theorem State.setContext_psi (s : State) (m l : Nat) : (s.setContext m l).psi = s.psi := rfl
@[simp] theorem State.setContext_psiInv (s : State) (m l : Nat) : (s.setContext m l).psiInv = s.psiInv := rfl
@[simp] theorem State.setContext_nInv (s : State) (m l : Nat) : (s.setContext m l).nInv = s.nInv := rfl
@[simp] theorem State.setContext_k (s : State) (m l : Nat) : (s.setContext m l).k = s.k := rfl
@[simp] theorem State.setContext_bigM (s : State) (m l : Nat) : (s.setContext m l).bigM = s.bigM := rfl
@[simp] theorem State.setContext_limb (s : State) (m l : Nat) : (s.setContext m l).limb = s.limb := rfl
@[simp] theorem State.setContext_crte (s : State) (m l : Nat) : (s.setContext m l).crte = s.crte := rfl
@[simp] theorem State.setContext_pending (s : State) (m l : Nat) : (s.setContext m l).pending = s.pending := rfl
@[simp] theorem State.setContext_wdata (s : State) (m l : Nat) : (s.setContext m l).wdata = s.wdata := rfl
@[simp] theorem State.setContext_responses (s : State) (m l : Nat) : (s.setContext m l).responses = s.responses := rfl
@[simp] theorem State.setContext_resets (s : State) (m l : Nat) : (s.setContext m l).resets = s.resets := rfl
@[simp] theorem State.setContext_ctxValid (s : State) (m l : Nat) : (s.setContext m l).status.ctxValid = true := rfl
@[simp] theorem State.setContext_tblValid (s : State) (m l : Nat) : (s.setContext m l).status.tblValid = (s.status.tblValid && (s.status.ctxValid && (l == s.logn && m == s.modulus))) := rfl
@[simp] theorem State.setContext_crtValid (s : State) (m l : Nat) : (s.setContext m l).status.crtValid = s.status.crtValid := rfl
@[simp] theorem State.setContext_sticky (s : State) (m l : Nat) : (s.setContext m l).status.sticky = s.status.sticky := rfl
@[simp] theorem State.setContext_err (s : State) (m l : Nat) : (s.setContext m l).status.err = s.status.err := rfl
@[simp] theorem State.setContext_getX (s : State) (m l : Nat) (q : RegNum) : (s.setContext m l).getX q = s.getX q := rfl
@[simp] theorem State.setContext_getT (s : State) (m l : Nat) (j : Nat) : (s.setContext m l).getT j = s.getT j := rfl
@[simp] theorem State.setContext_getLimb (s : State) (m l : Nat) (j : Nat) : (s.setContext m l).getLimb j = s.getLimb j := rfl
@[simp] theorem State.setContext_getCrte (s : State) (m l : Nat) (j : Nat) : (s.setContext m l).getCrte j = s.getCrte j := rfl
@[simp] theorem State.setContext_bufWord (s : State) (m l : Nat) (q : BufNum) (j : Nat) : (s.setContext m l).bufWord q j = s.bufWord q j := rfl
@[simp] theorem State.setContext_romWord (s : State) (m l : Nat) (j : Nat) : (s.setContext m l).romWord j = s.romWord j := rfl

/-! `setTable` -/

@[simp] theorem State.setTable_params (s : State) (a b c : Nat) (ws : List Nat) : (s.setTable a b c ws).params = s.params := rfl
@[simp] theorem State.setTable_x (s : State) (a b c : Nat) (ws : List Nat) : (s.setTable a b c ws).x = s.x := rfl
@[simp] theorem State.setTable_t (s : State) (a b c : Nat) (ws : List Nat) : (s.setTable a b c ws).t = s.t := rfl
@[simp] theorem State.setTable_bufs (s : State) (a b c : Nat) (ws : List Nat) : (s.setTable a b c ws).bufs = s.bufs := rfl
@[simp] theorem State.setTable_rom (s : State) (a b c : Nat) (ws : List Nat) : (s.setTable a b c ws).rom = s.rom.writePrefix ws := rfl
@[simp] theorem State.setTable_modulus (s : State) (a b c : Nat) (ws : List Nat) : (s.setTable a b c ws).modulus = s.modulus := rfl
@[simp] theorem State.setTable_logn (s : State) (a b c : Nat) (ws : List Nat) : (s.setTable a b c ws).logn = s.logn := rfl
@[simp] theorem State.setTable_psi (s : State) (a b c : Nat) (ws : List Nat) : (s.setTable a b c ws).psi = a := rfl
@[simp] theorem State.setTable_psiInv (s : State) (a b c : Nat) (ws : List Nat) : (s.setTable a b c ws).psiInv = b := rfl
@[simp] theorem State.setTable_nInv (s : State) (a b c : Nat) (ws : List Nat) : (s.setTable a b c ws).nInv = c := rfl
@[simp] theorem State.setTable_k (s : State) (a b c : Nat) (ws : List Nat) : (s.setTable a b c ws).k = s.k := rfl
@[simp] theorem State.setTable_bigM (s : State) (a b c : Nat) (ws : List Nat) : (s.setTable a b c ws).bigM = s.bigM := rfl
@[simp] theorem State.setTable_limb (s : State) (a b c : Nat) (ws : List Nat) : (s.setTable a b c ws).limb = s.limb := rfl
@[simp] theorem State.setTable_crte (s : State) (a b c : Nat) (ws : List Nat) : (s.setTable a b c ws).crte = s.crte := rfl
@[simp] theorem State.setTable_pending (s : State) (a b c : Nat) (ws : List Nat) : (s.setTable a b c ws).pending = s.pending := rfl
@[simp] theorem State.setTable_wdata (s : State) (a b c : Nat) (ws : List Nat) : (s.setTable a b c ws).wdata = s.wdata := rfl
@[simp] theorem State.setTable_responses (s : State) (a b c : Nat) (ws : List Nat) : (s.setTable a b c ws).responses = s.responses := rfl
@[simp] theorem State.setTable_resets (s : State) (a b c : Nat) (ws : List Nat) : (s.setTable a b c ws).resets = s.resets := rfl
@[simp] theorem State.setTable_ctxValid (s : State) (a b c : Nat) (ws : List Nat) : (s.setTable a b c ws).status.ctxValid = s.status.ctxValid := rfl
@[simp] theorem State.setTable_tblValid (s : State) (a b c : Nat) (ws : List Nat) : (s.setTable a b c ws).status.tblValid = true := rfl
@[simp] theorem State.setTable_crtValid (s : State) (a b c : Nat) (ws : List Nat) : (s.setTable a b c ws).status.crtValid = s.status.crtValid := rfl
@[simp] theorem State.setTable_sticky (s : State) (a b c : Nat) (ws : List Nat) : (s.setTable a b c ws).status.sticky = s.status.sticky := rfl
@[simp] theorem State.setTable_err (s : State) (a b c : Nat) (ws : List Nat) : (s.setTable a b c ws).status.err = s.status.err := rfl
@[simp] theorem State.setTable_getX (s : State) (a b c : Nat) (ws : List Nat) (q : RegNum) : (s.setTable a b c ws).getX q = s.getX q := rfl
@[simp] theorem State.setTable_getT (s : State) (a b c : Nat) (ws : List Nat) (j : Nat) : (s.setTable a b c ws).getT j = s.getT j := rfl
@[simp] theorem State.setTable_getLimb (s : State) (a b c : Nat) (ws : List Nat) (j : Nat) : (s.setTable a b c ws).getLimb j = s.getLimb j := rfl
@[simp] theorem State.setTable_getCrte (s : State) (a b c : Nat) (ws : List Nat) (j : Nat) : (s.setTable a b c ws).getCrte j = s.getCrte j := rfl
@[simp] theorem State.setTable_bufWord (s : State) (a b c : Nat) (ws : List Nat) (q : BufNum) (j : Nat) : (s.setTable a b c ws).bufWord q j = s.bufWord q j := rfl
@[simp] theorem State.setTable_n (s : State) (a b c : Nat) (ws : List Nat) : (s.setTable a b c ws).n = s.n := rfl

/-! `setLimb` -/

@[simp] theorem State.setLimb_params (s : State) (i v : Nat) : (s.setLimb i v).params = s.params := rfl
@[simp] theorem State.setLimb_x (s : State) (i v : Nat) : (s.setLimb i v).x = s.x := rfl
@[simp] theorem State.setLimb_t (s : State) (i v : Nat) : (s.setLimb i v).t = s.t := rfl
@[simp] theorem State.setLimb_bufs (s : State) (i v : Nat) : (s.setLimb i v).bufs = s.bufs := rfl
@[simp] theorem State.setLimb_rom (s : State) (i v : Nat) : (s.setLimb i v).rom = s.rom := rfl
@[simp] theorem State.setLimb_modulus (s : State) (i v : Nat) : (s.setLimb i v).modulus = s.modulus := rfl
@[simp] theorem State.setLimb_logn (s : State) (i v : Nat) : (s.setLimb i v).logn = s.logn := rfl
@[simp] theorem State.setLimb_psi (s : State) (i v : Nat) : (s.setLimb i v).psi = s.psi := rfl
@[simp] theorem State.setLimb_psiInv (s : State) (i v : Nat) : (s.setLimb i v).psiInv = s.psiInv := rfl
@[simp] theorem State.setLimb_nInv (s : State) (i v : Nat) : (s.setLimb i v).nInv = s.nInv := rfl
@[simp] theorem State.setLimb_k (s : State) (i v : Nat) : (s.setLimb i v).k = s.k := rfl
@[simp] theorem State.setLimb_bigM (s : State) (i v : Nat) : (s.setLimb i v).bigM = s.bigM := rfl
@[simp] theorem State.setLimb_limb (s : State) (i v : Nat) : (s.setLimb i v).limb = s.limb.set i v := rfl
@[simp] theorem State.setLimb_crte (s : State) (i v : Nat) : (s.setLimb i v).crte = s.crte := rfl
@[simp] theorem State.setLimb_pending (s : State) (i v : Nat) : (s.setLimb i v).pending = s.pending := rfl
@[simp] theorem State.setLimb_wdata (s : State) (i v : Nat) : (s.setLimb i v).wdata = s.wdata := rfl
@[simp] theorem State.setLimb_responses (s : State) (i v : Nat) : (s.setLimb i v).responses = s.responses := rfl
@[simp] theorem State.setLimb_resets (s : State) (i v : Nat) : (s.setLimb i v).resets = s.resets := rfl
@[simp] theorem State.setLimb_ctxValid (s : State) (i v : Nat) : (s.setLimb i v).status.ctxValid = s.status.ctxValid := rfl
@[simp] theorem State.setLimb_tblValid (s : State) (i v : Nat) : (s.setLimb i v).status.tblValid = s.status.tblValid := rfl
@[simp] theorem State.setLimb_crtValid (s : State) (i v : Nat) : (s.setLimb i v).status.crtValid = false := rfl
@[simp] theorem State.setLimb_sticky (s : State) (i v : Nat) : (s.setLimb i v).status.sticky = s.status.sticky := rfl
@[simp] theorem State.setLimb_err (s : State) (i v : Nat) : (s.setLimb i v).status.err = s.status.err := rfl
@[simp] theorem State.setLimb_getX (s : State) (i v : Nat) (q : RegNum) : (s.setLimb i v).getX q = s.getX q := rfl
@[simp] theorem State.setLimb_getT (s : State) (i v : Nat) (j : Nat) : (s.setLimb i v).getT j = s.getT j := rfl
@[simp] theorem State.setLimb_getCrte (s : State) (i v : Nat) (j : Nat) : (s.setLimb i v).getCrte j = s.getCrte j := rfl
@[simp] theorem State.setLimb_bufWord (s : State) (i v : Nat) (q : BufNum) (j : Nat) : (s.setLimb i v).bufWord q j = s.bufWord q j := rfl
@[simp] theorem State.setLimb_romWord (s : State) (i v : Nat) (j : Nat) : (s.setLimb i v).romWord j = s.romWord j := rfl
@[simp] theorem State.setLimb_n (s : State) (i v : Nat) : (s.setLimb i v).n = s.n := rfl

/-! `setCrt` -/

@[simp] theorem State.setCrt_params (s : State) (k m : Nat) (es : List Nat) : (s.setCrt k m es).params = s.params := rfl
@[simp] theorem State.setCrt_x (s : State) (k m : Nat) (es : List Nat) : (s.setCrt k m es).x = s.x := rfl
@[simp] theorem State.setCrt_t (s : State) (k m : Nat) (es : List Nat) : (s.setCrt k m es).t = s.t := rfl
@[simp] theorem State.setCrt_bufs (s : State) (k m : Nat) (es : List Nat) : (s.setCrt k m es).bufs = s.bufs := rfl
@[simp] theorem State.setCrt_rom (s : State) (k m : Nat) (es : List Nat) : (s.setCrt k m es).rom = s.rom := rfl
@[simp] theorem State.setCrt_modulus (s : State) (k m : Nat) (es : List Nat) : (s.setCrt k m es).modulus = s.modulus := rfl
@[simp] theorem State.setCrt_logn (s : State) (k m : Nat) (es : List Nat) : (s.setCrt k m es).logn = s.logn := rfl
@[simp] theorem State.setCrt_psi (s : State) (k m : Nat) (es : List Nat) : (s.setCrt k m es).psi = s.psi := rfl
@[simp] theorem State.setCrt_psiInv (s : State) (k m : Nat) (es : List Nat) : (s.setCrt k m es).psiInv = s.psiInv := rfl
@[simp] theorem State.setCrt_nInv (s : State) (k m : Nat) (es : List Nat) : (s.setCrt k m es).nInv = s.nInv := rfl
@[simp] theorem State.setCrt_k (s : State) (k m : Nat) (es : List Nat) : (s.setCrt k m es).k = k := rfl
@[simp] theorem State.setCrt_bigM (s : State) (k m : Nat) (es : List Nat) : (s.setCrt k m es).bigM = m := rfl
@[simp] theorem State.setCrt_limb (s : State) (k m : Nat) (es : List Nat) : (s.setCrt k m es).limb = s.limb := rfl
@[simp] theorem State.setCrt_crte (s : State) (k m : Nat) (es : List Nat) : (s.setCrt k m es).crte = overwrite es s.crte := rfl
@[simp] theorem State.setCrt_pending (s : State) (k m : Nat) (es : List Nat) : (s.setCrt k m es).pending = s.pending := rfl
@[simp] theorem State.setCrt_wdata (s : State) (k m : Nat) (es : List Nat) : (s.setCrt k m es).wdata = s.wdata := rfl
@[simp] theorem State.setCrt_responses (s : State) (k m : Nat) (es : List Nat) : (s.setCrt k m es).responses = s.responses := rfl
@[simp] theorem State.setCrt_resets (s : State) (k m : Nat) (es : List Nat) : (s.setCrt k m es).resets = s.resets := rfl
@[simp] theorem State.setCrt_ctxValid (s : State) (k m : Nat) (es : List Nat) : (s.setCrt k m es).status.ctxValid = s.status.ctxValid := rfl
@[simp] theorem State.setCrt_tblValid (s : State) (k m : Nat) (es : List Nat) : (s.setCrt k m es).status.tblValid = s.status.tblValid := rfl
@[simp] theorem State.setCrt_crtValid (s : State) (k m : Nat) (es : List Nat) : (s.setCrt k m es).status.crtValid = true := rfl
@[simp] theorem State.setCrt_sticky (s : State) (k m : Nat) (es : List Nat) : (s.setCrt k m es).status.sticky = s.status.sticky := rfl
@[simp] theorem State.setCrt_err (s : State) (k m : Nat) (es : List Nat) : (s.setCrt k m es).status.err = s.status.err := rfl
@[simp] theorem State.setCrt_getX (s : State) (k m : Nat) (es : List Nat) (q : RegNum) : (s.setCrt k m es).getX q = s.getX q := rfl
@[simp] theorem State.setCrt_getT (s : State) (k m : Nat) (es : List Nat) (j : Nat) : (s.setCrt k m es).getT j = s.getT j := rfl
@[simp] theorem State.setCrt_getLimb (s : State) (k m : Nat) (es : List Nat) (j : Nat) : (s.setCrt k m es).getLimb j = s.getLimb j := rfl
@[simp] theorem State.setCrt_bufWord (s : State) (k m : Nat) (es : List Nat) (q : BufNum) (j : Nat) : (s.setCrt k m es).bufWord q j = s.bufWord q j := rfl
@[simp] theorem State.setCrt_romWord (s : State) (k m : Nat) (es : List Nat) (j : Nat) : (s.setCrt k m es).romWord j = s.romWord j := rfl
@[simp] theorem State.setCrt_n (s : State) (k m : Nat) (es : List Nat) : (s.setCrt k m es).n = s.n := rfl

/-! `clearSticky` -/

@[simp] theorem State.clearSticky_params (s : State) : (s.clearSticky).params = s.params := rfl
@[simp] theorem State.clearSticky_x (s : State) : (s.clearSticky).x = s.x := rfl
@[simp] theorem State.clearSticky_t (s : State) : (s.clearSticky).t = s.t := rfl
@[simp] theorem State.clearSticky_bufs (s : State) : (s.clearSticky).bufs = s.bufs := rfl
@[simp] theorem State.clearSticky_rom (s : State) : (s.clearSticky).rom = s.rom := rfl
@[simp] theorem State.clearSticky_modulus (s : State) : (s.clearSticky).modulus = s.modulus := rfl
@[simp] theorem State.clearSticky_logn (s : State) : (s.clearSticky).logn = s.logn := rfl
@[simp] theorem State.clearSticky_psi (s : State) : (s.clearSticky).psi = s.psi := rfl
@[simp] theorem State.clearSticky_psiInv (s : State) : (s.clearSticky).psiInv = s.psiInv := rfl
@[simp] theorem State.clearSticky_nInv (s : State) : (s.clearSticky).nInv = s.nInv := rfl
@[simp] theorem State.clearSticky_k (s : State) : (s.clearSticky).k = s.k := rfl
@[simp] theorem State.clearSticky_bigM (s : State) : (s.clearSticky).bigM = s.bigM := rfl
@[simp] theorem State.clearSticky_limb (s : State) : (s.clearSticky).limb = s.limb := rfl
@[simp] theorem State.clearSticky_crte (s : State) : (s.clearSticky).crte = s.crte := rfl
@[simp] theorem State.clearSticky_pending (s : State) : (s.clearSticky).pending = s.pending := rfl
@[simp] theorem State.clearSticky_wdata (s : State) : (s.clearSticky).wdata = s.wdata := rfl
@[simp] theorem State.clearSticky_responses (s : State) : (s.clearSticky).responses = s.responses := rfl
@[simp] theorem State.clearSticky_resets (s : State) : (s.clearSticky).resets = s.resets := rfl
@[simp] theorem State.clearSticky_ctxValid (s : State) : (s.clearSticky).status.ctxValid = s.status.ctxValid := rfl
@[simp] theorem State.clearSticky_tblValid (s : State) : (s.clearSticky).status.tblValid = s.status.tblValid := rfl
@[simp] theorem State.clearSticky_crtValid (s : State) : (s.clearSticky).status.crtValid = s.status.crtValid := rfl
@[simp] theorem State.clearSticky_sticky (s : State) : (s.clearSticky).status.sticky = false := rfl
@[simp] theorem State.clearSticky_err (s : State) : (s.clearSticky).status.err = s.status.err := rfl
@[simp] theorem State.clearSticky_getX (s : State) (q : RegNum) : (s.clearSticky).getX q = s.getX q := rfl
@[simp] theorem State.clearSticky_getT (s : State) (j : Nat) : (s.clearSticky).getT j = s.getT j := rfl
@[simp] theorem State.clearSticky_getLimb (s : State) (j : Nat) : (s.clearSticky).getLimb j = s.getLimb j := rfl
@[simp] theorem State.clearSticky_getCrte (s : State) (j : Nat) : (s.clearSticky).getCrte j = s.getCrte j := rfl
@[simp] theorem State.clearSticky_bufWord (s : State) (q : BufNum) (j : Nat) : (s.clearSticky).bufWord q j = s.bufWord q j := rfl
@[simp] theorem State.clearSticky_romWord (s : State) (j : Nat) : (s.clearSticky).romWord j = s.romWord j := rfl
@[simp] theorem State.clearSticky_n (s : State) : (s.clearSticky).n = s.n := rfl

/-! `raised` -/

@[simp] theorem State.raised_params (s : State) (e : Err) : (s.raised e).params = s.params := rfl
@[simp] theorem State.raised_x (s : State) (e : Err) : (s.raised e).x = s.x := rfl
@[simp] theorem State.raised_t (s : State) (e : Err) : (s.raised e).t = s.t := rfl
@[simp] theorem State.raised_bufs (s : State) (e : Err) : (s.raised e).bufs = s.bufs := rfl
@[simp] theorem State.raised_rom (s : State) (e : Err) : (s.raised e).rom = s.rom := rfl
@[simp] theorem State.raised_status (s : State) (e : Err) : (s.raised e).status = s.status.failed e := rfl
@[simp] theorem State.raised_modulus (s : State) (e : Err) : (s.raised e).modulus = s.modulus := rfl
@[simp] theorem State.raised_logn (s : State) (e : Err) : (s.raised e).logn = s.logn := rfl
@[simp] theorem State.raised_psi (s : State) (e : Err) : (s.raised e).psi = s.psi := rfl
@[simp] theorem State.raised_psiInv (s : State) (e : Err) : (s.raised e).psiInv = s.psiInv := rfl
@[simp] theorem State.raised_nInv (s : State) (e : Err) : (s.raised e).nInv = s.nInv := rfl
@[simp] theorem State.raised_k (s : State) (e : Err) : (s.raised e).k = s.k := rfl
@[simp] theorem State.raised_bigM (s : State) (e : Err) : (s.raised e).bigM = s.bigM := rfl
@[simp] theorem State.raised_limb (s : State) (e : Err) : (s.raised e).limb = s.limb := rfl
@[simp] theorem State.raised_crte (s : State) (e : Err) : (s.raised e).crte = s.crte := rfl
@[simp] theorem State.raised_pending (s : State) (e : Err) : (s.raised e).pending = s.pending := rfl
@[simp] theorem State.raised_wdata (s : State) (e : Err) : (s.raised e).wdata = s.wdata := rfl
@[simp] theorem State.raised_responses (s : State) (e : Err) : (s.raised e).responses = s.responses ++ [⟨e.code, 0⟩] := rfl
@[simp] theorem State.raised_resets (s : State) (e : Err) : (s.raised e).resets = s.resets := rfl
@[simp] theorem State.raised_getX (s : State) (e : Err) (q : RegNum) : (s.raised e).getX q = s.getX q := rfl
@[simp] theorem State.raised_getT (s : State) (e : Err) (j : Nat) : (s.raised e).getT j = s.getT j := rfl
@[simp] theorem State.raised_getLimb (s : State) (e : Err) (j : Nat) : (s.raised e).getLimb j = s.getLimb j := rfl
@[simp] theorem State.raised_getCrte (s : State) (e : Err) (j : Nat) : (s.raised e).getCrte j = s.getCrte j := rfl
@[simp] theorem State.raised_bufWord (s : State) (e : Err) (q : BufNum) (j : Nat) : (s.raised e).bufWord q j = s.bufWord q j := rfl
@[simp] theorem State.raised_romWord (s : State) (e : Err) (j : Nat) : (s.raised e).romWord j = s.romWord j := rfl
@[simp] theorem State.raised_n (s : State) (e : Err) : (s.raised e).n = s.n := rfl

/-! `completed` -/

@[simp] theorem State.completed_params (s : State) (v : Nat) : (s.completed v).params = s.params := rfl
@[simp] theorem State.completed_x (s : State) (v : Nat) : (s.completed v).x = s.x := rfl
@[simp] theorem State.completed_t (s : State) (v : Nat) : (s.completed v).t = s.t := rfl
@[simp] theorem State.completed_bufs (s : State) (v : Nat) : (s.completed v).bufs = s.bufs := rfl
@[simp] theorem State.completed_rom (s : State) (v : Nat) : (s.completed v).rom = s.rom := rfl
@[simp] theorem State.completed_status (s : State) (v : Nat) : (s.completed v).status = s.status.succeeded := rfl
@[simp] theorem State.completed_modulus (s : State) (v : Nat) : (s.completed v).modulus = s.modulus := rfl
@[simp] theorem State.completed_logn (s : State) (v : Nat) : (s.completed v).logn = s.logn := rfl
@[simp] theorem State.completed_psi (s : State) (v : Nat) : (s.completed v).psi = s.psi := rfl
@[simp] theorem State.completed_psiInv (s : State) (v : Nat) : (s.completed v).psiInv = s.psiInv := rfl
@[simp] theorem State.completed_nInv (s : State) (v : Nat) : (s.completed v).nInv = s.nInv := rfl
@[simp] theorem State.completed_k (s : State) (v : Nat) : (s.completed v).k = s.k := rfl
@[simp] theorem State.completed_bigM (s : State) (v : Nat) : (s.completed v).bigM = s.bigM := rfl
@[simp] theorem State.completed_limb (s : State) (v : Nat) : (s.completed v).limb = s.limb := rfl
@[simp] theorem State.completed_crte (s : State) (v : Nat) : (s.completed v).crte = s.crte := rfl
@[simp] theorem State.completed_pending (s : State) (v : Nat) : (s.completed v).pending = s.pending := rfl
@[simp] theorem State.completed_wdata (s : State) (v : Nat) : (s.completed v).wdata = s.wdata := rfl
@[simp] theorem State.completed_responses (s : State) (v : Nat) : (s.completed v).responses = s.responses ++ [⟨0, v⟩] := rfl
@[simp] theorem State.completed_resets (s : State) (v : Nat) : (s.completed v).resets = s.resets := rfl
@[simp] theorem State.completed_getX (s : State) (v : Nat) (q : RegNum) : (s.completed v).getX q = s.getX q := rfl
@[simp] theorem State.completed_getT (s : State) (v : Nat) (j : Nat) : (s.completed v).getT j = s.getT j := rfl
@[simp] theorem State.completed_getLimb (s : State) (v : Nat) (j : Nat) : (s.completed v).getLimb j = s.getLimb j := rfl
@[simp] theorem State.completed_getCrte (s : State) (v : Nat) (j : Nat) : (s.completed v).getCrte j = s.getCrte j := rfl
@[simp] theorem State.completed_bufWord (s : State) (v : Nat) (q : BufNum) (j : Nat) : (s.completed v).bufWord q j = s.bufWord q j := rfl
@[simp] theorem State.completed_romWord (s : State) (v : Nat) (j : Nat) : (s.completed v).romWord j = s.romWord j := rfl
@[simp] theorem State.completed_n (s : State) (v : Nat) : (s.completed v).n = s.n := rfl

/-! `issue` -/

@[simp] theorem State.issue_params (s : State) (d : Nat) (rest : List HostEvent) : (s.issue d rest).params = s.params := rfl
@[simp] theorem State.issue_x (s : State) (d : Nat) (rest : List HostEvent) : (s.issue d rest).x = s.x := rfl
@[simp] theorem State.issue_t (s : State) (d : Nat) (rest : List HostEvent) : (s.issue d rest).t = s.t := rfl
@[simp] theorem State.issue_bufs (s : State) (d : Nat) (rest : List HostEvent) : (s.issue d rest).bufs = s.bufs := rfl
@[simp] theorem State.issue_rom (s : State) (d : Nat) (rest : List HostEvent) : (s.issue d rest).rom = s.rom := rfl
@[simp] theorem State.issue_status (s : State) (d : Nat) (rest : List HostEvent) : (s.issue d rest).status = s.status := rfl
@[simp] theorem State.issue_modulus (s : State) (d : Nat) (rest : List HostEvent) : (s.issue d rest).modulus = s.modulus := rfl
@[simp] theorem State.issue_logn (s : State) (d : Nat) (rest : List HostEvent) : (s.issue d rest).logn = s.logn := rfl
@[simp] theorem State.issue_psi (s : State) (d : Nat) (rest : List HostEvent) : (s.issue d rest).psi = s.psi := rfl
@[simp] theorem State.issue_psiInv (s : State) (d : Nat) (rest : List HostEvent) : (s.issue d rest).psiInv = s.psiInv := rfl
@[simp] theorem State.issue_nInv (s : State) (d : Nat) (rest : List HostEvent) : (s.issue d rest).nInv = s.nInv := rfl
@[simp] theorem State.issue_k (s : State) (d : Nat) (rest : List HostEvent) : (s.issue d rest).k = s.k := rfl
@[simp] theorem State.issue_bigM (s : State) (d : Nat) (rest : List HostEvent) : (s.issue d rest).bigM = s.bigM := rfl
@[simp] theorem State.issue_limb (s : State) (d : Nat) (rest : List HostEvent) : (s.issue d rest).limb = s.limb := rfl
@[simp] theorem State.issue_crte (s : State) (d : Nat) (rest : List HostEvent) : (s.issue d rest).crte = s.crte := rfl
@[simp] theorem State.issue_pending (s : State) (d : Nat) (rest : List HostEvent) : (s.issue d rest).pending = rest := rfl
@[simp] theorem State.issue_wdata (s : State) (d : Nat) (rest : List HostEvent) : (s.issue d rest).wdata = d % 2 ^ s.params.wm := rfl
@[simp] theorem State.issue_responses (s : State) (d : Nat) (rest : List HostEvent) : (s.issue d rest).responses = s.responses := rfl
@[simp] theorem State.issue_resets (s : State) (d : Nat) (rest : List HostEvent) : (s.issue d rest).resets = s.resets := rfl
@[simp] theorem State.issue_getX (s : State) (d : Nat) (rest : List HostEvent) (q : RegNum) : (s.issue d rest).getX q = s.getX q := rfl
@[simp] theorem State.issue_getT (s : State) (d : Nat) (rest : List HostEvent) (j : Nat) : (s.issue d rest).getT j = s.getT j := rfl
@[simp] theorem State.issue_getLimb (s : State) (d : Nat) (rest : List HostEvent) (j : Nat) : (s.issue d rest).getLimb j = s.getLimb j := rfl
@[simp] theorem State.issue_getCrte (s : State) (d : Nat) (rest : List HostEvent) (j : Nat) : (s.issue d rest).getCrte j = s.getCrte j := rfl
@[simp] theorem State.issue_bufWord (s : State) (d : Nat) (rest : List HostEvent) (q : BufNum) (j : Nat) : (s.issue d rest).bufWord q j = s.bufWord q j := rfl
@[simp] theorem State.issue_romWord (s : State) (d : Nat) (rest : List HostEvent) (j : Nat) : (s.issue d rest).romWord j = s.romWord j := rfl
@[simp] theorem State.issue_n (s : State) (d : Nat) (rest : List HostEvent) : (s.issue d rest).n = s.n := rfl

end Sys2Proof.Machine
end

