-- ==== Sys2Proof/Laws/Memory.lean ====
section
/-! SUPPORT. Reads after writes, and that every memory operation keeps the canonical form. -/

namespace Sys2Proof.Machine

open Sys2Proof

/-! Cells -/

/-- Every index listed is above `lo`. -/
def cellsAbove (lo : Nat) (cs : List (Nat × Nat)) : Prop := ∀ c ∈ cs, lo < c.1

theorem risingCells_cons (a : Nat × Nat) (cs : List (Nat × Nat)) :
    risingCells (a :: cs) = true ↔ cellsAbove a.1 cs ∧ risingCells cs = true := by
  induction cs generalizing a with
  | nil => simp [risingCells, cellsAbove]
  | cons b rest ih =>
    simp only [risingCells, Bool.and_eq_true, decide_eq_true_eq]
    constructor
    · rintro ⟨h1, h2⟩
      refine ⟨?_, h2⟩
      intro c hc
      rcases List.mem_cons.1 hc with rfl | hc
      · exact h1
      · exact lt_trans h1 (((ih b).1 h2).1 c hc)
    · rintro ⟨h1, h2⟩
      exact ⟨h1 b (List.mem_cons_self ..), h2⟩

theorem risingCells_iff_pairwise (cs : List (Nat × Nat)) :
    risingCells cs = true ↔ cs.Pairwise (fun a b => a.1 < b.1) := by
  induction cs with
  | nil => simp [risingCells]
  | cons a rest ih => rw [risingCells_cons, ih, List.pairwise_cons]; rfl

theorem lookup_cons_eq (k u : Nat) (rest : List (Nat × Nat)) : ((k, u) :: rest).lookup k = some u := by
  simp

theorem lookup_cons_ne {j k : Nat} (h : j ≠ k) (u : Nat) (rest : List (Nat × Nat)) :
    ((k, u) :: rest).lookup j = rest.lookup j := by
  have hb : (j == k) = false := by simpa using h
  rw [List.lookup_cons, hb]

theorem lookup_insertCell (cs : List (Nat × Nat)) (i v j : Nat) :
    (insertCell cs i v).lookup j = if j = i then some v else cs.lookup j := by
  induction cs with
  | nil => by_cases hj : j = i <;> simp [insertCell, hj]
  | cons c rest ih =>
    obtain ⟨k, u⟩ := c
    unfold insertCell
    by_cases h1 : i < k
    · rw [if_pos h1]
      by_cases hj : j = i
      · subst hj; rw [lookup_cons_eq, if_pos rfl]
      · rw [lookup_cons_ne hj, if_neg hj]
    · rw [if_neg h1]
      by_cases h2 : i = k
      · subst h2
        rw [if_pos rfl]
        by_cases hj : j = i
        · subst hj; rw [lookup_cons_eq, if_pos rfl]
        · rw [lookup_cons_ne hj, lookup_cons_ne hj, if_neg hj]
      · rw [if_neg h2]
        by_cases hj : j = k
        · subst hj
          rw [lookup_cons_eq, lookup_cons_eq, if_neg (fun e => h2 e.symm)]
        · rw [lookup_cons_ne hj, lookup_cons_ne hj, ih]

theorem mem_insertCell {cs : List (Nat × Nat)} {i v : Nat} {c : Nat × Nat} (h : c ∈ insertCell cs i v) :
    c = (i, v) ∨ c ∈ cs := by
  induction cs with
  | nil => simpa [insertCell] using h
  | cons d rest ih =>
    obtain ⟨k, u⟩ := d
    simp only [insertCell] at h
    split at h
    · simpa using h
    · split at h
      · rcases List.mem_cons.1 h with h | h
        · exact Or.inl h
        · exact Or.inr (List.mem_cons_of_mem _ h)
      · rcases List.mem_cons.1 h with h | h
        · exact Or.inr (h ▸ List.mem_cons_self ..)
        · rcases ih h with h | h
          · exact Or.inl h
          · exact Or.inr (List.mem_cons_of_mem _ h)

theorem risingCells_insertCell {cs : List (Nat × Nat)} (i v : Nat) (h : risingCells cs = true) :
    risingCells (insertCell cs i v) = true := by
  induction cs with
  | nil => rfl
  | cons c rest ih =>
    obtain ⟨k, u⟩ := c
    obtain ⟨habove, hrest⟩ := (risingCells_cons _ _).1 h
    simp only [insertCell]
    split
    · rename_i h1
      refine (risingCells_cons _ _).2 ⟨?_, h⟩
      intro c hc
      rcases List.mem_cons.1 hc with rfl | hc
      · exact h1
      · exact lt_trans h1 (habove c hc)
    · split
      · rename_i h1 h2
        subst h2
        exact (risingCells_cons _ _).2 ⟨habove, hrest⟩
      · rename_i h1 h2
        refine (risingCells_cons _ _).2 ⟨?_, ih hrest⟩
        intro c hc
        rcases mem_insertCell hc with rfl | hc
        · exact lt_of_le_of_ne (not_lt.1 h1) (fun e => h2 e.symm)
        · exact habove c hc

/-! One word -/

theorem Memory.written_write (m : Memory) (i v j : Nat) :
    (m.write i v).written j = if j = i then some v else m.written j :=
  lookup_insertCell m.cells i v j

theorem Memory.wf_write {m : Memory} (i v : Nat) (h : m.wf = true) : (m.write i v).wf = true :=
  risingCells_insertCell i v h

theorem Memory.wf_empty : (⟨[]⟩ : Memory).wf = true := rfl

/-! A prefix -/

theorem lookup_zip_range (ws : List Nat) (i k : Nat) (rest : List (Nat × Nat)) :
    ((List.range' k ws.length).zip ws ++ rest).lookup i =
      if k ≤ i ∧ i < k + ws.length then some (ws.getD (i - k) 0) else rest.lookup i := by
  induction ws generalizing k with
  | nil => simp
  | cons w ws ih =>
    simp only [List.length_cons, List.range'_succ, List.zip_cons_cons, List.cons_append, List.lookup_cons]
    by_cases hk : i = k
    · subst hk; simp
    · have hb : (i == k) = false := by simpa using hk
      simp only [hb]
      rw [ih (k + 1)]
      by_cases h : k + 1 ≤ i ∧ i < k + 1 + ws.length
      · have h' : k ≤ i ∧ i < k + (ws.length + 1) := by omega
        rw [if_pos h, if_pos h']
        obtain ⟨d, rfl⟩ : ∃ d, i = k + 1 + d := ⟨i - (k + 1), by omega⟩
        have e1 : k + 1 + d - (k + 1) = d := by omega
        have e2 : k + 1 + d - k = d + 1 := by omega
        rw [e1, e2, List.getD_cons_succ]
      · have h' : ¬ (k ≤ i ∧ i < k + (ws.length + 1)) := by omega
        rw [if_neg h, if_neg h']

theorem lookup_filter_ge (cs : List (Nat × Nat)) (n i : Nat) (h : n ≤ i) :
    (cs.filter (fun c => decide (n ≤ c.1))).lookup i = cs.lookup i := by
  induction cs with
  | nil => rfl
  | cons c rest ih =>
    obtain ⟨k, u⟩ := c
    by_cases hk : n ≤ k
    · simp [hk, List.lookup_cons, ih]
    · have : (i == k) = false := by simp; omega
      simp [hk, List.lookup_cons, this, ih]

theorem Memory.written_writePrefix (m : Memory) (ws : List Nat) (i : Nat) :
    (m.writePrefix ws).written i = if i < ws.length then some (ws.getD i 0) else m.written i := by
  have h := lookup_zip_range ws i 0 (m.cells.filter (fun c => decide (ws.length ≤ c.1)))
  simp only [Memory.written, Memory.writePrefix, List.range_eq_range']
  rw [h]
  by_cases hi : i < ws.length
  · simp [hi]
  · simp only [hi, Nat.zero_le, Nat.zero_add, and_false, if_false]
    exact lookup_filter_ge m.cells ws.length i (not_lt.1 hi)

theorem mem_writePrefix {m : Memory} {ws : List Nat} {c : Nat × Nat} (h : c ∈ (m.writePrefix ws).cells) :
    (c.1 < ws.length ∧ c.2 ∈ ws) ∨ (ws.length ≤ c.1 ∧ c ∈ m.cells) := by
  simp only [Memory.writePrefix, List.mem_append, List.mem_filter, decide_eq_true_eq] at h
  rcases h with h | h
  · obtain ⟨a, b⟩ := c
    obtain ⟨h1, h2⟩ := List.of_mem_zip h
    exact Or.inl ⟨List.mem_range.1 h1, h2⟩
  · exact Or.inr ⟨h.2, h.1⟩

theorem pairwise_zip_fst (ks ws : List Nat) (h : ks.Pairwise (· < ·)) :
    (ks.zip ws).Pairwise (fun a b => a.1 < b.1) := by
  induction ks generalizing ws with
  | nil => simp
  | cons k ks ih =>
    cases ws with
    | nil => simp
    | cons w ws =>
      obtain ⟨h1, h2⟩ := List.pairwise_cons.1 h
      refine List.pairwise_cons.2 ⟨?_, ih ws h2⟩
      rintro ⟨a, b⟩ hc
      exact h1 a (List.of_mem_zip hc).1

theorem Memory.wf_writePrefix {m : Memory} (ws : List Nat) (h : m.wf = true) : (m.writePrefix ws).wf = true := by
  simp only [Memory.wf, Memory.writePrefix] at *
  rw [risingCells_iff_pairwise] at *
  refine List.pairwise_append.2 ⟨pairwise_zip_fst _ _ List.pairwise_lt_range, h.filter _, ?_⟩
  intro a ha b hb
  obtain ⟨k, v⟩ := a
  have h1 : k < ws.length := List.mem_range.1 (List.of_mem_zip ha).1
  have h2 : ws.length ≤ b.1 := by simpa using (List.mem_filter.1 hb).2
  exact lt_of_lt_of_le h1 h2

/-! Every word -/

theorem lookup_map_snd (cs : List (Nat × Nat)) (f : Nat → Nat → Nat) (i : Nat) :
    (cs.map fun c => (c.1, f c.1 c.2)).lookup i = (cs.lookup i).map (f i) := by
  induction cs with
  | nil => rfl
  | cons c rest ih =>
    obtain ⟨k, u⟩ := c
    rw [List.map_cons]
    by_cases hi : i = k
    · subst hi; rw [lookup_cons_eq, lookup_cons_eq]; rfl
    · rw [lookup_cons_ne hi, lookup_cons_ne hi, ih]

theorem Memory.written_mapWords (m : Memory) (f : Nat → Nat → Nat) (i : Nat) :
    (m.mapWords f).written i = (m.written i).map (f i) :=
  lookup_map_snd m.cells f i

theorem Memory.wf_mapWords {m : Memory} (f : Nat → Nat → Nat) (h : m.wf = true) : (m.mapWords f).wf = true := by
  simp only [Memory.wf, Memory.mapWords] at *
  rw [risingCells_iff_pairwise] at *
  exact List.pairwise_map.2 h

/-! Memories that fit -/

theorem Memory.fits_write {m : Memory} {size w i v : Nat} (h : m.fits size w) (hi : i < size) (hv : v < 2 ^ w) :
    (m.write i v).fits size w := by
  refine ⟨Memory.wf_write i v h.1, ?_⟩
  intro c hc
  rcases mem_insertCell hc with rfl | hc
  · exact ⟨hi, hv⟩
  · exact h.2 c hc

theorem Memory.fits_writePrefix {m : Memory} {size w : Nat} {ws : List Nat} (h : m.fits size w)
    (hn : ws.length ≤ size) (hw : ∀ v ∈ ws, v < 2 ^ w) : (m.writePrefix ws).fits size w := by
  refine ⟨Memory.wf_writePrefix ws h.1, ?_⟩
  intro c hc
  rcases mem_writePrefix hc with ⟨h1, h2⟩ | ⟨_, h2⟩
  · exact ⟨lt_of_lt_of_le h1 hn, hw _ h2⟩
  · exact h.2 c h2

theorem Memory.fits_mapWords {m : Memory} {size w : Nat} {f : Nat → Nat → Nat} (h : m.fits size w)
    (hf : ∀ i v, f i v < 2 ^ w) : (m.mapWords f).fits size w := by
  refine ⟨Memory.wf_mapWords f h.1, ?_⟩
  intro c hc
  obtain ⟨d, hd, rfl⟩ := List.mem_map.1 hc
  exact ⟨(h.2 d hd).1, hf _ _⟩

theorem mem_of_lookup {cs : List (Nat × Nat)} {i v : Nat} (h : cs.lookup i = some v) : (i, v) ∈ cs := by
  induction cs with
  | nil => simp at h
  | cons c rest ih =>
    obtain ⟨k, u⟩ := c
    rw [List.lookup_cons] at h
    by_cases hk : i = k
    · subst hk; simp at h; simp [h]
    · have hb : (i == k) = false := by simpa using hk
      simp only [hb] at h
      exact List.mem_cons_of_mem _ (ih h)

theorem Memory.written_lt {m : Memory} {size w i v : Nat} (h : m.fits size w) (hv : m.written i = some v) :
    v < 2 ^ w := (h.2 _ (mem_of_lookup hv)).2

/-! Words of the state -/

/-- A buffer word has the width of a word (10_state.md R28). -/
theorem State.bufWord_lt {s : State} (h : s.memoriesOk) (b : BufNum) (i : Nat) : s.bufWord b i < 2 ^ s.params.w := by
  unfold State.bufWord
  cases hw : (s.bufs.getD b.toNat ⟨[]⟩).written i with
  | none => exact Nat.mod_lt _ (Nat.two_pow_pos _)
  | some v =>
    by_cases hb : b.toNat < s.bufs.length
    · rw [List.getD_eq_getElem _ _ hb] at hw
      exact Memory.written_lt (h.bufs _ (List.getElem_mem hb)) hw
    · rw [List.getD_eq_default _ _ (not_lt.1 hb)] at hw
      simp [Memory.written] at hw

/-- A ROM word has the width of a word (10_state.md R29). -/
theorem State.romWord_lt {s : State} (h : s.memoriesOk) (j : Nat) : s.romWord j < 2 ^ s.params.w := by
  unfold State.romWord
  cases hw : s.rom.written j with
  | none => exact Nat.mod_lt _ (Nat.two_pow_pos _)
  | some v => exact Memory.written_lt h.rom hw

theorem State.bufWord_setBufWord (s : State) (b : BufNum) (i v : Nat) (q : BufNum) (j : Nat)
    (hb : b.toNat < s.bufs.length) :
    (s.setBufWord b i v).bufWord q j = if q = b ∧ j = i then v else s.bufWord q j := by
  by_cases hq : q = b
  · subst hq
    by_cases hj : j = i <;>
      simp [State.bufWord, State.setBufWord, List.getD_eq_getElem?_getD, hb, Memory.written_write, hj]
  · have hne : b.toNat ≠ q.toNat := fun e => hq (BitVec.eq_of_toNat_eq e.symm)
    simp [State.bufWord, State.setBufWord, List.getD_eq_getElem?_getD, hne, hq]

/-- A store to one buffer word leaves every other word of every buffer alone. -/
theorem State.bufWord_setBufWord_ne (s : State) (b : BufNum) (i v : Nat) (q : BufNum) (j : Nat)
    (h : ¬ (q = b ∧ j = i)) : (s.setBufWord b i v).bufWord q j = s.bufWord q j := by
  by_cases hb : b.toNat < s.bufs.length
  · rw [State.bufWord_setBufWord s b i v q j hb, if_neg h]
  · simp [State.bufWord, State.setBufWord, List.set_eq_of_length_le (not_lt.1 hb)]

theorem State.bufWord_setBufWords (s : State) (b : BufNum) (ws : List Nat) (q : BufNum) (j : Nat)
    (hb : b.toNat < s.bufs.length) :
    (s.setBufWords b ws).bufWord q j = if q = b ∧ j < ws.length then ws.getD j 0 else s.bufWord q j := by
  by_cases hq : q = b
  · subst hq
    by_cases hj : j < ws.length <;>
      simp [State.bufWord, State.setBufWords, List.getD_eq_getElem?_getD, hb, Memory.written_writePrefix, hj]
  · have hne : b.toNat ≠ q.toNat := fun e => hq (BitVec.eq_of_toNat_eq e.symm)
    simp [State.bufWord, State.setBufWords, List.getD_eq_getElem?_getD, hne, hq]

/-- A rewriting of a buffer's first words leaves every other word of every buffer alone. -/
theorem State.bufWord_setBufWords_ne (s : State) (b : BufNum) (ws : List Nat) (q : BufNum) (j : Nat)
    (h : ¬ (q = b ∧ j < ws.length)) : (s.setBufWords b ws).bufWord q j = s.bufWord q j := by
  by_cases hb : b.toNat < s.bufs.length
  · rw [State.bufWord_setBufWords s b ws q j hb, if_neg h]
  · simp [State.bufWord, State.setBufWords, List.set_eq_of_length_le (not_lt.1 hb)]

/-- What a reset event leaves in the buffers (10_state.md R28, R39): as many canonical memories as before. -/
theorem State.resetBufs_fits {s : State} (h : s.memoriesOk) :
    s.resetBufs.length = s.params.nbuf ∧ ∀ m ∈ s.resetBufs, m.fits s.params.nmax s.params.w := by
  refine ⟨by simp [State.resetBufs], fun m hm => ?_⟩
  obtain ⟨b, _, rfl⟩ := List.mem_map.1 hm
  refine Memory.fits_mapWords ?_ fun _ _ => Nat.mod_lt _ (Nat.two_pow_pos _)
  by_cases hb : b < s.bufs.length
  · rw [List.getD_eq_getElem _ _ hb]; exact h.bufs _ (List.getElem_mem hb)
  · rw [List.getD_eq_default _ _ (not_lt.1 hb)]; exact ⟨rfl, nofun⟩

theorem State.romWord_setTable (s : State) (a b d : Nat) (ws : List Nat) (j : Nat) :
    (s.setTable a b d ws).romWord j = if j < ws.length then ws.getD j 0 else s.romWord j := by
  by_cases hj : j < ws.length <;> simp [State.romWord, Memory.written_writePrefix, hj]

@[simp] theorem State.bufWords_length (s : State) (b : BufNum) : (s.bufWords b).length = s.n := by
  simp [State.bufWords]

theorem State.bufWords_getD (s : State) (b : BufNum) (i : Nat) (h : i < s.n) :
    (s.bufWords b).getD i 0 = s.bufWord b i := by
  simp [State.bufWords, List.getD_eq_getElem?_getD, h]

end Sys2Proof.Machine
end

