-- ==== Sys2Proof/Laws/Ops.lean ====
section
/-! SUPPORT. What each shared operation can do: one lemma per operation. -/

namespace Sys2Proof.Machine

open Sys2Proof

/-! Registers -/

@[simp] theorem State.getX_setX (s : State) (r : RegNum) (v : Nat) (q : RegNum) :
    (s.setX r v).getX q = if q = r then v else s.getX q := by
  simp only [State.getX, State.setX, Vector.getElem_set]
  by_cases h : q = r
  · simp [h]
  · have : r.toNat ≠ q.toNat := fun e => h (BitVec.eq_of_toNat_eq e.symm)
    simp [h, this]

theorem State.getT_setT (s : State) (i v j : Nat) (hi : i < s.t.length) :
    (s.setT i v).getT j = if j = i then v else s.getT j := by
  by_cases h : j = i
  · subst h; simp [State.getT, State.setT, List.getD_eq_getElem?_getD, hi]
  · have : i ≠ j := fun e => h e.symm
    simp [State.getT, State.setT, List.getD_eq_getElem?_getD, h, this]

theorem getD_overwrite (new old : List Nat) (j : Nat) :
    (overwrite new old).getD j 0 = if j < new.length then new.getD j 0 else old.getD j 0 := by
  by_cases h : j < new.length
  · simp [overwrite, List.getD_eq_getElem?_getD, h, List.getElem?_append_left]
  · have h' : new.length ≤ j := not_lt.1 h
    simp [overwrite, List.getD_eq_getElem?_getD, h, List.getElem?_append_right h', Nat.add_sub_cancel' h']

theorem length_overwrite (new old : List Nat) (h : new.length ≤ old.length) :
    (overwrite new old).length = old.length := by
  simp [overwrite]; omega

theorem State.getT_setTuple (s : State) (vs : List Nat) (j : Nat) :
    (s.setTuple vs).getT j = if j < vs.length then vs.getD j 0 else s.getT j :=
  getD_overwrite vs s.t j

theorem State.getCrte_setCrt (s : State) (k m : Nat) (es : List Nat) (j : Nat) :
    (s.setCrt k m es).getCrte j = if j < es.length then es.getD j 0 else s.getCrte j :=
  getD_overwrite es s.crte j

theorem State.getLimb_setLimb (s : State) (i v j : Nat) (hi : i < s.limb.length) :
    (s.setLimb i v).getLimb j = if j = i then v else s.getLimb j := by
  by_cases h : j = i
  · subst h; simp [State.getLimb, State.setLimb, List.getD_eq_getElem?_getD, hi]
  · have : i ≠ j := fun e => h e.symm
    simp [State.getLimb, State.setLimb, List.getD_eq_getElem?_getD, h, this]

theorem State.fit_lt (s : State) (v : Nat) : s.fit v < 2 ^ s.params.wm := by
  unfold State.fit
  split
  · assumption
  · exact Nat.mod_lt _ (Nat.two_pow_pos _)

theorem State.fit_eq {s : State} {v : Nat} (h : v < 2 ^ s.params.wm) : s.fit v = v := if_pos h

/-! Ends of a command -/

@[simp] theorem raise_next (s t : State) (e : Err) : raise s e = .next t ↔ s.raised e = t := by
  simp [raise]

@[simp] theorem finish_next (s t : State) (v : Nat) : finish s v = .next t ↔ s.completed v = t := by
  simp [finish]

/-- What a command that needs a ring context can do. -/
theorem needContext_next {s t : State} {body : Out} :
    needContext s body = .next t ↔
      (s.status.ctxValid = true ∧ body = .next t) ∨ (s.status.ctxValid = false ∧ s.raised .notConfigured = t) := by
  cases h : s.status.ctxValid <;> simp [needContext, h]

/-- What a command that needs a valid table can do. -/
theorem needTable_next {s t : State} {body : Out} :
    needTable s body = .next t ↔
      (s.status.tblValid = true ∧ body = .next t) ∨ (s.status.tblValid = false ∧ s.raised .notConfigured = t) := by
  cases h : s.status.tblValid <;> simp [needTable, h]

/-- What a command that needs valid CRT state can do. -/
theorem needCrt_next {s t : State} {body : Out} :
    needCrt s body = .next t ↔
      (s.status.crtValid = true ∧ body = .next t) ∨ (s.status.crtValid = false ∧ s.raised .notConfigured = t) := by
  cases h : s.status.crtValid <;> simp [needCrt, h]

/-- What a bound check can do. -/
theorem needBound_next {s t : State} {ok : Bool} {body : Out} :
    needBound s ok body = .next t ↔ (ok = true ∧ body = .next t) ∨ (ok = false ∧ s.raised .indexOutOfRange = t) := by
  cases ok <;> simp [needBound]

/-- What a canonicality check can do. -/
theorem needCanonical_next {s t : State} {ok : Bool} {body : Out} :
    needCanonical s ok body = .next t ↔ (ok = true ∧ body = .next t) ∨ (ok = false ∧ s.raised .nonCanonical = t) := by
  cases ok <;> simp [needCanonical]

/-- Every buffer word of the named buffer is canonical exactly when the check passes (20_memory.md R72). -/
theorem State.canonBuf_iff (s : State) (b : BufNum) :
    s.canonBuf b = true ↔ ∀ i < s.n, s.bufWord b i < s.modulus := by
  simp [State.canonBuf, State.bufWords]

/-- Every tuple entry in use is canonical for its limb exactly when the check passes (10_state.md R25). -/
theorem State.canonTuple_iff (s : State) :
    s.canonTuple = true ↔ ∀ i < s.k, s.getT i < s.getLimb i := by
  simp [State.canonTuple]

/-! Bounds over register lists -/

/-- A bound on every entry of a list of registers is a bound on whatever is read from it. -/
theorem getD_lt {vs : List Nat} {bound : Nat} (h : ∀ v ∈ vs, v < bound) (hb : 0 < bound) (i : Nat) :
    vs.getD i 0 < bound := by
  rw [List.getD_eq_getElem?_getD]
  cases hi : vs[i]? with
  | none => simpa using hb
  | some v => simpa using h v (List.mem_of_getElem? hi)

end Sys2Proof.Machine
end

