-- ==== Sys2Proof/Laws/PerInstr.lean ====
section
/-! SUPPORT. Statements made per command: one family, one lemma per constructor. -/

namespace Sys2Proof.Laws.OpcodeByte

open Sys2Proof

/-- The opcode byte of the opcode map (30_encoding.md R84). -/
def opcodeOf : Instr → BitVec 8
  | .nop => 0x00
  | .setr _ => 0x01
  | .getr _ => 0x02
  | .mov _ _ => 0x03
  | .getc _ => 0x04
  | .setctx _ _ => 0x05
  | .ldc _ _ _ => 0x06
  | .stc _ _ _ => 0x07
  | .sett _ _ => 0x08
  | .gett _ _ => 0x09
  | .clrerr => 0x0A
  | .add _ _ _ => 0x10
  | .sub _ _ _ => 0x11
  | .neg _ _ => 0x12
  | .mul _ _ _ => 0x20
  | .pow _ _ _ => 0x21
  | .pwmul _ _ => 0x22
  | .inv _ _ => 0x30
  | .tbuild => 0x40
  | .twd _ _ => 0x41
  | .brev _ _ => 0x50
  | .brperm _ => 0x51
  | .bfly _ _ _ => 0x60
  | .nttfwd _ => 0x61
  | .nttinv _ => 0x62
  | .setlimb _ _ => 0x70
  | .crtbuild _ => 0x71
  | .compose _ => 0x72
  | .decomp _ => 0x80
  | .rescale _ _ => 0x81

/-- The encoded word carries its row's opcode in bits 31:24 (R81, R84). -/
def Statement (i : Instr) : Prop := opField (encode i) = opcodeOf i

theorem nop : Statement (.nop) := opField_encodeReg ..
theorem setr (ra : RegNum) : Statement (.setr ra) := opField_encodeReg ..
theorem getr (ra : RegNum) : Statement (.getr ra) := opField_encodeReg ..
theorem mov (ra rb : RegNum) : Statement (.mov ra rb) := opField_encodeReg ..
theorem getc (imm : Imm16) : Statement (.getc imm) := opField_encodeImm ..
theorem setctx (ra : RegNum) (imm : Imm16) : Statement (.setctx ra imm) := opField_encodeImm ..
theorem ldc (ra : RegNum) (rb : BufNum) (imm : Imm16) : Statement (.ldc ra rb imm) := opField_encodeImm ..
theorem stc (ra : RegNum) (rb : BufNum) (imm : Imm16) : Statement (.stc ra rb imm) := opField_encodeImm ..
theorem sett (ra : RegNum) (imm : Imm16) : Statement (.sett ra imm) := opField_encodeImm ..
theorem gett (ra : RegNum) (imm : Imm16) : Statement (.gett ra imm) := opField_encodeImm ..
theorem clrerr : Statement (.clrerr) := opField_encodeReg ..
theorem add (ra rb rc : RegNum) : Statement (.add ra rb rc) := opField_encodeReg ..
theorem sub (ra rb rc : RegNum) : Statement (.sub ra rb rc) := opField_encodeReg ..
theorem neg (ra rb : RegNum) : Statement (.neg ra rb) := opField_encodeReg ..
theorem mul (ra rb rc : RegNum) : Statement (.mul ra rb rc) := opField_encodeReg ..
theorem pow (ra rb rc : RegNum) : Statement (.pow ra rb rc) := opField_encodeReg ..
theorem pwmul (ra rb : BufNum) : Statement (.pwmul ra rb) := opField_encodeReg ..
theorem inv (ra rb : RegNum) : Statement (.inv ra rb) := opField_encodeReg ..
theorem tbuild : Statement (.tbuild) := opField_encodeReg ..
theorem twd (ra : RegNum) (imm : Imm16) : Statement (.twd ra imm) := opField_encodeImm ..
theorem brev (ra rb : RegNum) : Statement (.brev ra rb) := opField_encodeReg ..
theorem brperm (ra : BufNum) : Statement (.brperm ra) := opField_encodeReg ..
theorem bfly (ra rb rc : RegNum) : Statement (.bfly ra rb rc) := opField_encodeReg ..
theorem nttfwd (ra : BufNum) : Statement (.nttfwd ra) := opField_encodeReg ..
theorem nttinv (ra : BufNum) : Statement (.nttinv ra) := opField_encodeReg ..
theorem setlimb (ra : RegNum) (imm : Imm16) : Statement (.setlimb ra imm) := opField_encodeImm ..
theorem crtbuild (imm : Imm16) : Statement (.crtbuild imm) := opField_encodeImm ..
theorem compose (ra : RegNum) : Statement (.compose ra) := opField_encodeReg ..
theorem decomp (ra : RegNum) : Statement (.decomp ra) := opField_encodeReg ..
theorem rescale (ra rb : RegNum) : Statement (.rescale ra rb) := opField_encodeReg ..

end Sys2Proof.Laws.OpcodeByte
end

