-- ==== Sys2Proof/Tests/Slice0.lean ====
section
/-! SUPPORT. The model's own tests: decoding of written-out words, single steps with results taken from the spec, and for
every statement with hypotheses a state that meets them. -/

namespace Sys2Proof.Tests

open Sys2Proof Sys2Proof.Machine

/-! ## Well-formedness -/

/-- `BFLY` with `ra = rb` is no command (30_encoding.md R82). -/
theorem test_wellFormed_refuses_bfly_same : (Instr.bfly 1 1 3).wellFormed = false := by decide
theorem test_wellFormed_accepts_bfly : (Instr.bfly 1 2 2).wellFormed = true := by decide

/-! ## Decoding: one word per row of 30_encoding.md R84, bits written out from R81; most of the words stand in
95_test_vectors.md -/

theorem test_decode_nop : decode 0x00000000 = .ok .nop := by decide
theorem test_decode_setr : decode 0x01300000 = .ok (.setr 3) := by decide
theorem test_decode_getr : decode 0x02300000 = .ok (.getr 3) := by decide
theorem test_decode_mov : decode 0x03230000 = .ok (.mov 2 3) := by decide
theorem test_decode_getc : decode 0x04000024 = .ok (.getc 0x24) := by decide
theorem test_decode_setctx : decode 0x0510000B = .ok (.setctx 1 11) := by decide
theorem test_decode_ldc : decode 0x066F0000 = .ok (.ldc 6 15 0) := by decide
theorem test_decode_stc : decode 0x07F10002 = .ok (.stc 15 1 2) := by decide
theorem test_decode_sett : decode 0x08500003 = .ok (.sett 5 3) := by decide
theorem test_decode_gett : decode 0x09800001 = .ok (.gett 8 1) := by decide
theorem test_decode_clrerr : decode 0x0A000000 = .ok .clrerr := by decide
theorem test_decode_add : decode 0x10312000 = .ok (.add 3 1 2) := by decide
theorem test_decode_sub : decode 0x11321000 = .ok (.sub 3 2 1) := by decide
theorem test_decode_neg : decode 0x12310000 = .ok (.neg 3 1) := by decide
theorem test_decode_mul : decode 0x20312000 = .ok (.mul 3 1 2) := by decide
theorem test_decode_pow : decode 0x21312000 = .ok (.pow 3 1 2) := by decide
theorem test_decode_pwmul : decode 0x22010000 = .ok (.pwmul 0 1) := by decide
theorem test_decode_inv : decode 0x30210000 = .ok (.inv 2 1) := by decide
theorem test_decode_tbuild : decode 0x40000000 = .ok .tbuild := by decide
theorem test_decode_twd : decode 0x41200007 = .ok (.twd 2 7) := by decide
theorem test_decode_brev : decode 0x50210000 = .ok (.brev 2 1) := by decide
theorem test_decode_brperm : decode 0x51400000 = .ok (.brperm 4) := by decide
theorem test_decode_bfly : decode 0x60122000 = .ok (.bfly 1 2 2) := by decide
theorem test_decode_nttfwd : decode 0x61100000 = .ok (.nttfwd 1) := by decide
theorem test_decode_nttinv : decode 0x62100000 = .ok (.nttinv 1) := by decide
theorem test_decode_setlimb : decode 0x70100002 = .ok (.setlimb 1 2) := by decide
theorem test_decode_crtbuild : decode 0x71000003 = .ok (.crtbuild 3) := by decide
theorem test_decode_compose : decode 0x72300000 = .ok (.compose 3) := by decide
theorem test_decode_decomp : decode 0x80100000 = .ok (.decomp 1) := by decide
theorem test_decode_rescale : decode 0x81320000 = .ok (.rescale 3 2) := by decide

/-- Words that are no command (30_encoding.md R86). -/
theorem test_decode_rejects :
    decode 0x0B000000 = .error .unassignedOpcode ∧ decode 0xFF000000 = .error .unassignedOpcode ∧
    decode 0x00000001 = .error .nonzeroReservedBits ∧ decode 0x10312001 = .error .nonzeroReservedBits ∧
    decode 0x05110002 = .error .nonzeroReservedBits ∧ decode 0x60113000 = .error .butterflySameRegisters := by
  decide

/-- The rows of the table as the host numbers them. -/
theorem test_decodeTableWord :
    decodeTableWord 32 0x22010000 = some (.pwmul 0 1) ∧ decodeTableWord 32 0x60000000 = none := by decide

/-! ## States for single steps -/

/-- Context `m = 17`, `n = 4` with its table for `psi = 2`, limbs 3, 5, 7 with their coefficients, the value 23 in the
tuple, two buffers (95_test_vectors.md programs P2 and P6), and `ADD x3, x1, x2` pending. -/
def demo : State :=
  { State.reset with
    x := #v[0, 5, 7, 16, 17, 15, 2 ^ 32, 1, 23, 105, 2, 3, 4, 107, 2 ^ 32 - 1, 2 ^ 128 - 1]
    t := [2, 3, 2, 9]
    bufs := [⟨[(0, 1), (1, 2), (2, 3), (3, 4)]⟩, ⟨[(0, 5), (1, 6), (2, 7), (3, 16)]⟩,
      ⟨[(0, 0), (1, 0), (2, 0), (3, 17)]⟩, ⟨[]⟩]
    rom := ⟨[(0, 1), (1, 2), (2, 4), (3, 8), (4, 16), (5, 15), (6, 13), (7, 9)]⟩
    status := { ctxValid := true, tblValid := true, crtValid := true, sticky := false, err := 0 }
    modulus := 17
    logn := 2
    psi := 2
    psiInv := 9
    nInv := 13
    k := 3
    bigM := 105
    limb := [3, 5, 7, 0]
    crte := [70, 21, 15, 0]
    pending := [.command 0x10312000 0] }

/-- `demo` with another modulus and no table. -/
def demoMod (m : Nat) : State :=
  { demo with modulus := m, status := { demo.status with tblValid := false } }

/-- `demo` with a tuple entry that is not canonical for its limb. -/
def demoTuple : State := { demo with t := [2, 5, 2, 9] }

/-- `demo` before `CRTBUILD`, with the limbs given. -/
def demoLimbs (ms : List Nat) : State :=
  { demo with limb := ms, status := { demo.status with crtValid := false } }

/-- The state after a command, where there is one. -/
def ran (i : Instr) (s : State) : State :=
  match exec i s with
  | .next t => t
  | _ => s

/-- The number behind the last response. -/
def answer (s : State) : Option (Nat × Nat) := s.responses.getLast?.map fun r => (r.err.toNat, r.rdata)

theorem demo_widths : demo.widthsOk where
  x := by decide
  t := fun i => getD_lt (by decide) (by decide) i
  modulus := by decide
  logn := by decide
  psi := by decide
  psiInv := by decide
  nInv := by decide
  k := by decide
  bigM := by decide
  limb := fun i => getD_lt (by decide) (by decide) i
  crte := fun i => getD_lt (by decide) (by decide) i
  wdata := by decide
  responses := by decide

/-- The invariant holds of a state with everything configured. -/
theorem demo_inv : demo.Inv where
  legal := by decide
  shapes := ⟨rfl, rfl, rfl, rfl⟩
  widths := demo_widths
  memories := { bufs := by unfold Memory.fits; decide, rom := by unfold Memory.fits; decide }
  ring :=
    { ctx := by decide
      noCtx := by decide
      prime := fun _ => by show Nat.Prime 17; norm_num
      divides := fun _ => ⟨2, rfl⟩
      root := by decide
      rom := by decide
      psiInv := by decide
      nInv := by decide }
  crt :=
    { count := by decide
      limbs := by decide
      coprime := by decide
      bigM := by decide
      below := by decide
      own := by decide
      other := by decide }
  status := ⟨by decide, by decide⟩

/-- The invariant holds at reset, and memory is canonical there. -/
theorem reset_memory_canonical : State.reset.rom.wf = true ∧ ∀ m ∈ State.reset.bufs, m.wf = true := by decide

/-! ## Single steps: results from the tables and programs of 95_test_vectors.md, or by hand from the rule -/

theorem test_nop : answer (ran .nop demo) = some (0, 0) := by decide
theorem test_setr : (ran (.setr 4) { demo with wdata := 2 ^ 128 - 1 }).getX 4 = 2 ^ 128 - 1 := by decide
theorem test_getr : answer (ran (.getr 15) demo) = some (0, 2 ^ 128 - 1) := by decide
theorem test_mov : (ran (.mov 2 4) demo).getX 2 = 17 := by decide
/-- Section 3.1, rows 8 and 10. -/
theorem test_getc : answer (ran (.getc 8) demo) = some (0, 0x8A420) ∧ answer (ran (.getc 9) demo) = some (4, 0) := by
  decide
/-- Section 3.1, rows 10 to 12: `GETC STATUS` shows the error of the command before it. -/
theorem test_getc_status :
    answer (ran (.getc 0) (ran (.getc 9) State.reset)) = some (0, 0x48) ∧
    answer (ran (.getc 0) (ran (.getc 0) (ran (.getc 9) State.reset))) = some (0, 0x08) := by decide
/-- Section 3.1, rows 43, 45, 47. -/
theorem test_setctx :
    (ran (.setctx 6 2) demo).status.word = 0x1F ∧ (ran (.setctx 4 11) demo).status.word = 0x1F ∧
    (ran (.setctx 4 10) demo).status.word = 0x05 := by decide
/-- The context already in force keeps the table (20_memory.md R71). -/
theorem test_setctx_same : (ran (.setctx 4 2) demo).status.word = 0x07 := by decide
theorem test_ldc : (ran (.ldc 6 2 3) demo).getX 6 = 17 ∧ answer (ran (.ldc 6 0 4) demo) = some (4, 0) := by decide
theorem test_stc :
    (ran (.stc 3 0 3) demo).bufWords 0 = [1, 2, 3, 16] ∧ answer (ran (.stc 4 0 3) demo) = some (10, 0) := by decide
/-- Section 3.1, rows 32, 33, 35. -/
theorem test_sett :
    (ran (.sett 14 1) demo).t = [2, 2 ^ 32 - 1, 2, 9] ∧ answer (ran (.sett 6 1) demo) = some (10, 0) ∧
    answer (ran (.sett 1 4) demo) = some (4, 0) := by decide
theorem test_gett : (ran (.gett 8 3) demo).getX 8 = 9 ∧ answer (ran (.gett 8 4) demo) = some (4, 0) := by decide
theorem test_clrerr : (ran .clrerr (ran (.getc 9) State.reset)).status.word = 0 := by decide
/-- 16 + 7 = 23 = 6 modulo 17. -/
theorem test_add : (ran (.add 0 3 2) demo).getX 0 = 6 ∧ answer (ran (.add 0 4 2) demo) = some (10, 0) := by decide
/-- `rb` minus `rc`: 5 - 7 = -2 = 15 and 7 - 5 = 2 modulo 17. -/
theorem test_sub : (ran (.sub 0 1 2) demo).getX 0 = 15 ∧ (ran (.sub 0 2 1) demo).getX 0 = 2 := by decide
theorem test_neg : (ran (.neg 1 0) demo).getX 1 = 0 ∧ (ran (.neg 1 3) demo).getX 1 = 1 := by decide
/-- 16 * 16 = 256 = 1 modulo 17. -/
theorem test_mul : (ran (.mul 0 3 3) demo).getX 0 = 1 := by decide
/-- 2^4 = 16 modulo 17; `0^0 = 1`. -/
theorem test_pow : (ran (.pow 0 10 12) demo).getX 0 = 16 ∧ (ran (.pow 1 0 0) demo).getX 1 = 1 := by decide
/-- The words of program P2 after its two forward transforms. -/
theorem test_pwmul :
    (ran (.pwmul 0 1) ((demo.setBufWords 0 [15, 13, 11, 16]).setBufWords 1 [7, 7, 8, 15])).bufWords 0
      = [3, 6, 3, 2] := by decide
/-- 5 * 7 = 35 = 1 modulo 17; 5 is no unit modulo 15. -/
theorem test_inv : (ran (.inv 0 1) demo).getX 0 = 7 ∧ answer (ran (.inv 0 1) (demoMod 15)) = some (5, 0) := by decide
/-- Program P2, row 3; 15 is no prime, and 8 does not divide 18. -/
theorem test_tbuild :
    ran .tbuild (demoMod 17) = { demo with responses := [⟨0, 0⟩] } ∧
    answer (ran .tbuild (demoMod 15)) = some (1, 0) ∧ answer (ran .tbuild (demoMod 19)) = some (1, 0) := by decide
theorem test_twd : (ran (.twd 0 7) demo).getX 0 = 9 ∧ answer (ran (.twd 0 8) demo) = some (4, 0) := by decide
theorem test_brev : (ran (.brev 0 10) demo).getX 0 = 1 ∧ answer (ran (.brev 0 12) demo) = some (4, 0) := by decide
theorem test_brperm : (ran (.brperm 2) demo).bufWords 2 = [0, 0, 0, 17] ∧
    (ran (.brperm 0) demo).bufWords 0 = [1, 3, 2, 4] := by decide
/-- `t = 7 * 16 = 112 = 10`: 5 + 10 = 15 and 5 - 10 = 12 modulo 17. -/
theorem test_bfly : (ran (.bfly 1 2 3) demo).getX 1 = 15 ∧ (ran (.bfly 1 2 3) demo).getX 2 = 12 := by decide
/-- Section 3.7, row 20: the twiddle is the first operand itself. -/
theorem test_bfly_same_twiddle :
    (ran (.bfly 11 12 11) demo).getX 11 = 15 ∧ (ran (.bfly 11 12 11) demo).getX 12 = 8 := by decide
/-- Program P2, row 20. -/
theorem test_nttfwd : (ran (.nttfwd 0) demo).bufWords 0 = [15, 13, 11, 16] := by decide
/-- Section 3.8, rows 4 and 5. -/
theorem test_nttinv :
    (ran (.nttinv 0) (demo.setBufWords 0 [15, 13, 11, 16])).bufWords 0 = [1, 2, 3, 4] ∧
    (ran (.nttinv 0) demo).bufWords 0 = [11, 5, 2, 5] := by decide
theorem test_setlimb :
    (ran (.setlimb 14 3) demo).limb = [3, 5, 7, 2 ^ 32 - 1] ∧ (ran (.setlimb 14 3) demo).status.word = 0x03 := by decide
/-- Program P6, row 7; a limb that is not set. -/
theorem test_crtbuild :
    ran (.crtbuild 3) (demoLimbs [3, 5, 7, 0]) = { demo with responses := [⟨0, 0⟩] } ∧
    answer (ran (.crtbuild 4) demo) = some (1, 0) := by decide
theorem test_compose : (ran (.compose 3) demo).getX 3 = 23 ∧ answer (ran (.compose 3) demoTuple) = some (10, 0) := by
  decide
/-- 107 is beyond `BIGM = 105`; its residues are those of 2. -/
theorem test_decomp : (ran (.decomp 8) demo).t = [2, 3, 2, 9] ∧ (ran (.decomp 13) demo).t = [2, 2, 2, 9] := by decide
/-- Program P6, rows 19 and 28; `(23 + 3) div 7 = 3`. -/
theorem test_rescale :
    (ran (.rescale 0 5) demo).getX 0 = 3 ∧ (ran (.rescale 0 5) demo).t = [0, 3, 0, 9] ∧
    answer (ran (.rescale 0 3) demo) = some (7, 0) := by decide

/-! ## States that meet the hypotheses of the statements, clause by clause, at boundary values -/

/-- A reset state with the host's next events. -/
def fresh (es : List HostEvent) : State := { State.reset with pending := es }

theorem witness_DecodeEncodeRoundTrip : (Instr.bfly 15 0 15).wellFormed = true := by decide
theorem witness_DecodedWordIsItsEncoding : decode 0x60F0F000 = .ok (.bfly 15 0 15) := by decide
theorem witness_DecodingFollowsOpcodeMap :
    ∃ r ∈ opcodeTable, (0x60F0F000 : CmdWord) &&& r.mask = r.pat ∧ r.mnemonic = "BFLY" ∧
      raField 0x60F0F000 ≠ rbField 0x60F0F000 :=
  ⟨⟨"BFLY", 0x60000000, 0xFF000FFF⟩, by decide, by decide, by decide, by decide⟩

theorem witness_StepRunsDecodedCommand :
    demo.params.legal = true ∧ demo.pending = .command 0x10312000 0 :: [] ∧ decode 0x10312000 = .ok (.add 3 1 2) := by
  decide

theorem witness_IllegalWordIsRejected :
    (fresh [.command 0x0B000000 0]).params.legal = true ∧
    (∀ r ∈ opcodeTable, (0x0B000000 : CmdWord) &&& r.mask ≠ r.pat) ∧
    ((0x60FF0000 : CmdWord) &&& 0xFF000FFF = 0x60000000 ∧ raField 0x60FF0000 = rbField 0x60FF0000) := by decide

theorem witness_EveryStepAnswers : demo.params.legal = true := by decide

theorem witness_HostResetZeroesRegisters :
    ({ demo with pending := [.reset] } : State).params.legal = true ∧
    ({ demo with pending := [.reset] } : State).pending = .reset :: [] := by decide

theorem witness_ResetMeetsInvariant : Params.reference.legal = true := by decide

theorem witness_CommandsRightAfterReset :
    Params.reference.legal = true ∧ (Instr.bfly 0 1 1).wellFormed = true ∧ (Instr.crtbuild 4).wellFormed = true := by
  decide

/-- One step from a state that meets the invariant; it stands for the five statements about what a step keeps. -/
theorem witness_StepKeeps : demo.Inv ∧ ∃ t, step demo = .next t ∧ t.getX 3 = 12 :=
  ⟨demo_inv, _, rfl, by decide⟩

theorem witness_StepKeepsShapesAndWidths : demo.Inv ∧ ∃ t, step demo = .next t := ⟨demo_inv, _, rfl⟩
theorem witness_StepKeepsCanonicalMemories : demo.Inv ∧ ∃ t, step demo = .next t := ⟨demo_inv, _, rfl⟩
theorem witness_StepKeepsContextAndTable : demo.Inv ∧ ∃ t, step demo = .next t := ⟨demo_inv, _, rfl⟩
theorem witness_StepKeepsCrtCoefficients : demo.Inv ∧ ∃ t, step demo = .next t := ⟨demo_inv, _, rfl⟩
theorem witness_StepKeepsStatusCodes : demo.Inv ∧ ∃ t, step demo = .next t := ⟨demo_inv, _, rfl⟩

theorem witness_RunsKeepInvariant : demo.Inv ∧ ∃ t, Host.Core.run Sys2Proof.core 1 demo = .next t :=
  ⟨demo_inv, _, rfl⟩

theorem witness_FailedCommandChangesNothing : ∃ t, exec (.add 3 1 4) demo = .next t ∧ t.status.err ≠ 0 :=
  ⟨_, rfl, by decide⟩

theorem witness_SucceedingCommandCompletes :
    (∃ t, exec (.add 3 1 2) demo = .next t ∧ t.status.err = 0) ∧
    (∃ t, exec (.getc 0) demo = .next t ∧ t.status.err = 0 ∧ 8 ≤ demo.params.wm) ∧
    (∃ t, exec .clrerr demo = .next t ∧ t.status.err = 0) :=
  ⟨⟨_, rfl, by decide⟩, ⟨_, rfl, by decide, by decide⟩, ⟨_, rfl, by decide⟩⟩

theorem witness_CodesEachCommandCanReport : ∃ t, exec (.inv 0 1) (demoMod 15) = .next t ∧ t.status.err = 5 :=
  ⟨_, rfl, by decide⟩

/-- Modulo the prime 3 every fourth power is 0 or 1, never 2. -/
theorem witness_NoPrimitiveRootIsUnreachable :
    (∃ t, exec .tbuild (demoMod 17) = .next t) ∧
    (demoMod 3).status.ctxValid = true ∧ (demoMod 3).modulus.Prime ∧
    ¬ ∃ psi, 1 ≤ psi ∧ psi < (demoMod 3).modulus ∧ psi ^ (demoMod 3).n % (demoMod 3).modulus = (demoMod 3).modulus - 1 := by
  refine ⟨⟨_, rfl⟩, rfl, by show Nat.Prime 3; norm_num, ?_⟩
  rintro ⟨psi, h1, h2, h3⟩
  have h2' : psi < 3 := h2
  interval_cases psi <;> revert h3 <;> decide

theorem witness_FailedCommandFailsAgain : ∃ t, exec (.rescale 0 3) demo = .next t ∧ t.status.err ≠ 0 :=
  ⟨_, rfl, by decide⟩

theorem witness_ValidFlagsFollowMaintenanceRules :
    (∃ t, exec (.setctx 4 2) demo = .next t ∧ t.status.err = 0 ∧ demo.getX 4 = demo.modulus ∧ demo.logn = 2) ∧
    (∃ t, exec (.setctx 4 1) demo = .next t ∧ t.status.err = 0) ∧
    (∃ t, exec .tbuild (demoMod 17) = .next t ∧ t.status.err = 0) ∧
    (∃ t, exec (.setlimb 1 0) demo = .next t ∧ t.status.err = 0) ∧
    (∃ t, exec (.crtbuild 1) demo = .next t ∧ t.status.err = 0) ∧
    (∃ t, exec (.crtbuild 0) demo = .next t ∧ t.status.err ≠ 0) :=
  ⟨⟨_, rfl, by decide, by decide, by decide⟩, ⟨_, rfl, by decide⟩, ⟨_, rfl, by decide⟩, ⟨_, rfl, by decide⟩,
    ⟨_, rfl, by decide⟩, ⟨_, rfl, by decide⟩⟩

theorem witness_RegistersWrittenOnlyByTheirCommands :
    ∃ t, exec (.bfly 1 2 3) demo = .next t ∧ (3 : RegNum) ∉ (Instr.bfly 1 2 3).writesX := ⟨_, rfl, by decide⟩

theorem witness_TupleAndMemoryWrittenOnlyByTheirCommands :
    (∃ t, exec (.decomp 8) demo = .next t ∧ ¬ (Instr.decomp 8).writesT demo 3) ∧
    (∃ t, exec (.stc 3 0 3) demo = .next t ∧ ¬ (Instr.stc 3 0 3).writesBuf demo 0 2) ∧
    (∃ t, exec .tbuild demo = .next t ∧ ¬ (8 < 2 * demo.n)) :=
  ⟨⟨_, rfl, by unfold Instr.writesT; decide⟩, ⟨_, rfl, by unfold Instr.writesBuf; decide⟩, ⟨_, rfl, by decide⟩⟩

theorem witness_ControlRegistersWrittenOnlyByTheirCommands :
    ∃ t, exec (.setlimb 1 0) demo = .next t ∧ (∀ ra imm, Instr.setlimb 1 0 = .setlimb ra imm → 1 ≠ imm.toNat) :=
  ⟨_, rfl, by rintro ra imm ⟨⟩; decide⟩

theorem witness_DatumReadOnlyBySetr : (∀ ra, Instr.add 3 1 2 ≠ .setr ra) ∧ ∃ t, exec (.add 3 1 2) demo = .next t :=
  ⟨fun _ => nofun, _, rfl⟩

/-- The last assigned and the first unassigned numbers of each block of 10_state.md R30. -/
theorem witness_GetcReadsControlRegisters :
    (demo.getX 0 = 0 ∧ (0x08 : Imm16).toNat = 0x08) ∧
    (3 < demo.params.kmax ∧ demo.params.kmax ≤ 8 ∧ (0x13 : Imm16).toNat = 0x10 + 3) ∧
    (3 < demo.params.kmax ∧ (0x23 : Imm16).toNat = 0x20 + 3) ∧
    (0x08 < (0x09 : Imm16).toNat ∧ ¬ 0x10 ≤ (0x0F : Imm16).toNat ∧ ¬ (0x14 : Imm16).toNat < 0x10 + demo.params.kmax ∧
      ¬ 0x20 ≤ (0x14 : Imm16).toNat ∧ ¬ (0x24 : Imm16).toNat < 0x20 + demo.params.kmax) := by decide

theorem witness_SetctxSetsRingContext :
    (demo.params.lognmax < (11 : Imm16).toNat) ∧ (demo.getX 7 < 2) ∧ (2 ^ demo.params.w ≤ demo.getX 6) ∧
    ((10 : Imm16).toNat ≤ demo.params.lognmax ∧ 2 ≤ demo.getX 10 ∧ demo.getX 10 < 2 ^ demo.params.w) ∧
    (2 ≤ demo.getX 14 ∧ demo.getX 14 < 2 ^ demo.params.w) := by decide

theorem witness_LdcLoadsBufferWord :
    (fresh []).status.ctxValid = false ∧
    (demo.status.ctxValid = true ∧ demo.params.nbuf ≤ (4 : BufNum).toNat ∧ demo.n ≤ (4 : Imm16).toNat) ∧
    (demo.status.ctxValid = true ∧ (3 : BufNum).toNat < demo.params.nbuf ∧ (3 : Imm16).toNat < demo.n) := by decide

theorem witness_StcStoresBufferWord :
    demo.bufs.length = demo.params.nbuf ∧
    ((fresh []).bufs.length = (fresh []).params.nbuf ∧ (fresh []).status.ctxValid = false) ∧
    (demo.status.ctxValid = true ∧ demo.params.nbuf ≤ (4 : BufNum).toNat ∧ demo.n ≤ (4 : Imm16).toNat) ∧
    ((3 : BufNum).toNat < demo.params.nbuf ∧ (3 : Imm16).toNat < demo.n ∧ demo.modulus ≤ demo.getX 4) ∧
    demo.getX 3 < demo.modulus := by decide

theorem witness_TupleTransfersComplete :
    demo.t.length = demo.params.kmax ∧ demo.params.kmax ≤ (4 : Imm16).toNat ∧
    ((3 : Imm16).toNat < demo.params.kmax ∧ 2 ^ demo.params.w ≤ demo.getX 6) ∧
    demo.getX 14 < 2 ^ demo.params.w := by decide

theorem witness_AddIsModularAddition :
    (fresh []).status.ctxValid = false ∧
    (demo.status.ctxValid = true ∧ demo.modulus ≤ demo.getX 4) ∧ demo.getX 3 < demo.modulus := by decide

theorem witness_SubIsModularSubtraction :
    (fresh []).status.ctxValid = false ∧
    (demo.status.ctxValid = true ∧ demo.modulus ≤ demo.getX 4) ∧ demo.getX 3 < demo.modulus ∧
    demo.getX 0 < demo.modulus := by decide

theorem witness_NegIsModularNegation :
    (fresh []).status.ctxValid = false ∧
    (demo.status.ctxValid = true ∧ demo.modulus ≤ demo.getX 4) ∧ demo.getX 3 < demo.modulus ∧
    demo.getX 0 < demo.modulus := by decide

theorem witness_MulIsModularMultiplication :
    (fresh []).status.ctxValid = false ∧
    (demo.status.ctxValid = true ∧ demo.modulus ≤ demo.getX 4) ∧ demo.getX 3 < demo.modulus := by decide

theorem witness_PowIsModularPower :
    (fresh []).status.ctxValid = false ∧
    (demo.status.ctxValid = true ∧ demo.modulus ≤ demo.getX 4) ∧ demo.getX 3 < demo.modulus := by decide

theorem witness_PwmulIsPointwiseProduct :
    demo.bufs.length = demo.params.nbuf ∧ (fresh []).bufs.length = (fresh []).params.nbuf ∧
    (fresh []).status.ctxValid = false ∧
    (demo.status.ctxValid = true ∧ demo.params.nbuf ≤ (4 : BufNum).toNat) ∧
    ((2 : BufNum).toNat < demo.params.nbuf ∧ 3 < demo.n ∧ demo.modulus ≤ demo.bufWord 2 3) ∧
    (∀ i < demo.n, demo.bufWord 0 i < demo.modulus ∧ demo.bufWord 1 i < demo.modulus) := by decide

theorem witness_InvIsModularInverse :
    (demo.status.ctxValid = true → 2 ≤ demo.modulus) ∧ (fresh []).status.ctxValid = false ∧
    demo.modulus ≤ demo.getX 4 ∧ (demo.getX 0 < demo.modulus ∧ Nat.gcd (demo.getX 0) demo.modulus ≠ 1) ∧
    (demo.getX 3 < demo.modulus ∧ Nat.gcd (demo.getX 3) demo.modulus = 1) := by decide

theorem witness_InverseLaws : 2 ≤ 9 ∧ 2 < 9 ∧ Nat.gcd 2 9 = 1 ∧ 8 < 9 ∧ Nat.gcd 8 9 = 1 := by decide

/-- A composite modulus, a prime where `2n` does not divide `p - 1`, and the smallest prime where 8 does. -/
theorem witness_TbuildBuildsTable :
    (fresh []).status.ctxValid = false ∧
    ((demoMod 15).status.ctxValid = true ∧ ¬ (demoMod 15).modulus.Prime) ∧
    ((demoMod 19).modulus.Prime ∧ ¬ 2 * (demoMod 19).n ∣ (demoMod 19).modulus - 1) ∧
    (demo.status.ctxValid = true ∧ demo.modulus.Prime ∧ 2 * demo.n ∣ demo.modulus - 1) := by
  refine ⟨rfl, ⟨rfl, ?_⟩, ⟨?_, by decide⟩, rfl, ?_, by decide⟩
  · show ¬ Nat.Prime 15; norm_num
  · show Nat.Prime 19; norm_num
  · show Nat.Prime 17; norm_num

theorem witness_ReferenceInstanceTakesLeastRoot :
    (demoMod 17).params = Params.reference ∧ ∃ t, exec .tbuild (demoMod 17) = .next t ∧ t.status.err = 0 :=
  ⟨rfl, _, rfl, by decide⟩

theorem witness_ValidTableContents : demo.Inv ∧ demo.status.tblValid = true := ⟨demo_inv, rfl⟩

theorem witness_TwdReadsTableWord :
    (fresh []).status.tblValid = false ∧ demo.status.tblValid = true ∧ 2 * demo.n ≤ (8 : Imm16).toNat ∧
    (7 : Imm16).toNat < 2 * demo.n := by decide

theorem witness_BrevReversesIndex :
    (fresh []).status.ctxValid = false ∧ demo.status.ctxValid = true ∧ demo.n ≤ demo.getX 12 ∧
    demo.getX 11 < demo.n ∧ demo.logn ≤ demo.params.wm := by decide

theorem witness_BrpermPermutesBuffer :
    demo.bufs.length = demo.params.nbuf ∧ (fresh []).bufs.length = (fresh []).params.nbuf ∧
    (fresh []).status.ctxValid = false ∧ demo.status.ctxValid = true ∧
    demo.params.nbuf ≤ (4 : BufNum).toNat ∧ (3 : BufNum).toNat < demo.params.nbuf := by decide

theorem witness_BitReversalLaws : 0 < 2 ^ 0 ∧ 1023 < 2 ^ 10 := by decide

theorem witness_BflyIsCooleyTukey :
    ((1 : RegNum) ≠ 2 ∧ (fresh []).status.ctxValid = false) ∧
    (demo.status.ctxValid = true ∧ demo.modulus ≤ demo.getX 4) ∧ (demo.getX 0 < demo.modulus ∧ demo.getX 3 < demo.modulus) := by
  decide

/-- `demo` after a change of context: the invariant with no table. -/
theorem fresh_inv : (fresh []).Inv where
  legal := by decide
  shapes := ⟨rfl, rfl, rfl, rfl⟩
  widths :=
    { x := by decide
      t := fun i => getD_lt (by decide) (by decide) i
      modulus := by decide
      logn := by decide
      psi := by decide
      psiInv := by decide
      nInv := by decide
      k := by decide
      bigM := by decide
      limb := fun i => getD_lt (by decide) (by decide) i
      crte := fun i => getD_lt (by decide) (by decide) i
      wdata := by decide
      responses := by decide }
  memories := { bufs := by unfold Memory.fits; decide, rom := by unfold Memory.fits; decide }
  ring := ⟨nofun, by decide, nofun, nofun, nofun, nofun, nofun, nofun⟩
  crt := ⟨nofun, nofun, nofun, nofun, nofun, nofun, nofun⟩
  status := ⟨by decide, by decide⟩

theorem witness_NttfwdComputesForwardTransform :
    ((fresh []).Inv ∧ (fresh []).status.tblValid = false) ∧
    (demo.Inv ∧ demo.status.tblValid = true ∧ demo.params.nbuf ≤ (4 : BufNum).toNat) ∧
    ((2 : BufNum).toNat < demo.params.nbuf ∧ 3 < demo.n ∧ demo.modulus ≤ demo.bufWord 2 3) ∧
    (∀ i < demo.n, demo.bufWord 1 i < demo.modulus) :=
  ⟨⟨fresh_inv, rfl⟩, ⟨demo_inv, rfl, by decide⟩, by decide, by decide⟩

theorem witness_NttinvComputesInverseTransform :
    ((fresh []).Inv ∧ (fresh []).status.tblValid = false) ∧
    (demo.Inv ∧ demo.status.tblValid = true ∧ demo.params.nbuf ≤ (4 : BufNum).toNat) ∧
    ((2 : BufNum).toNat < demo.params.nbuf ∧ 3 < demo.n ∧ demo.modulus ≤ demo.bufWord 2 3) ∧
    (∀ i < demo.n, demo.bufWord 1 i < demo.modulus) :=
  ⟨⟨fresh_inv, rfl⟩, ⟨demo_inv, rfl, by decide⟩, by decide, by decide⟩

theorem witness_TransformsRoundTrip :
    demo.Inv ∧ demo.status.tblValid = true ∧ (1 : BufNum).toNat < demo.params.nbuf ∧
    ∀ i < demo.n, demo.bufWord 1 i < demo.modulus := ⟨demo_inv, by decide⟩

theorem witness_ProductLaw :
    demo.Inv ∧ demo.status.tblValid = true ∧ (0 : BufNum) ≠ 1 ∧ (0 : BufNum).toNat < demo.params.nbuf ∧
    (1 : BufNum).toNat < demo.params.nbuf ∧
    ∀ i < demo.n, demo.bufWord 0 i < demo.modulus ∧ demo.bufWord 1 i < demo.modulus := ⟨demo_inv, by decide⟩

theorem witness_SetlimbSetsLimb :
    demo.limb.length = demo.params.kmax ∧ demo.params.kmax ≤ (4 : Imm16).toNat ∧
    ((3 : Imm16).toNat < demo.params.kmax ∧ demo.getX 7 < 2 ∧ 2 ^ demo.params.w ≤ demo.getX 6) ∧
    (2 ≤ demo.getX 10 ∧ demo.getX 14 < 2 ^ demo.params.w) := by decide

theorem witness_CrtbuildBuildsCoefficients :
    ((0 : Imm16).toNat = 0 ∧ demo.params.kmax < (5 : Imm16).toNat) ∧
    (1 ≤ (4 : Imm16).toNat ∧ (4 : Imm16).toNat ≤ demo.params.kmax ∧ 3 < (4 : Imm16).toNat ∧ demo.getLimb 3 < 2) ∧
    ((∀ i < 4, 2 ≤ (demoLimbs [3, 5, 7, 9]).getLimb i) ∧ 0 < 3 ∧
      ¬ ((demoLimbs [3, 5, 7, 9]).getLimb 0).Coprime ((demoLimbs [3, 5, 7, 9]).getLimb 3)) ∧
    ((∀ i < 4, 2 ≤ (demoLimbs [3, 5, 7, 2]).getLimb i) ∧
      ∀ i < 4, ∀ j < 4, i < j →
        ((demoLimbs [3, 5, 7, 2]).getLimb i).Coprime ((demoLimbs [3, 5, 7, 2]).getLimb j)) := by decide

theorem witness_ComposeReconstructsValue :
    ((fresh []).Inv ∧ (fresh []).status.crtValid = false) ∧
    (demo.Inv ∧ demo.status.crtValid = true ∧ ∀ i < demo.k, demo.getT i < demo.getLimb i) ∧
    (1 < demoTuple.k ∧ demoTuple.getLimb 1 ≤ demoTuple.getT 1) :=
  ⟨⟨fresh_inv, rfl⟩, ⟨demo_inv, rfl, by decide⟩, by decide⟩

/-- The invariant says nothing of a tuple but its length and its entries' width. -/
theorem demo_tuple_inv {ts : List Nat} (hl : ts.length = 4) (hw : ∀ v ∈ ts, v < 2 ^ 32) :
    ({ demo with t := ts } : State).Inv where
  legal := demo_inv.legal
  shapes := ⟨hl, rfl, rfl, rfl⟩
  widths := { demo_inv.widths with t := fun i => getD_lt hw (by decide) i }
  memories := ⟨demo_inv.memories.bufs, demo_inv.memories.rom⟩
  ring := { demo_inv.ring with }
  crt := { demo_inv.crt with }
  status := ⟨demo_inv.status.code, demo_inv.status.sticky⟩

/-- A tuple entry that is not canonical, 5 modulo 5. -/
theorem demoTuple_inv : demoTuple.Inv := demo_tuple_inv (by decide) (by decide)

theorem witness_DecompWritesResidues :
    (fresh []).status.crtValid = false ∧ demo.status.crtValid = true := by decide

theorem witness_CrtRoundTrip :
    demo.Inv ∧ demo.status.crtValid = true ∧ demo.getX 8 < demo.bigM ∧ ¬ demo.getX 9 < demo.bigM ∧
    ∀ i < demo.k, demo.getT i < demo.getLimb i := ⟨demo_inv, by decide⟩

/-- The limbs' subset `3 * 5` for the target 15, and 16, which is no product of limbs. -/
theorem witness_RescaleSwitchesModulus :
    ((fresh []).Inv ∧ (fresh []).status.crtValid = false) ∧
    (demoTuple.Inv ∧ demoTuple.status.crtValid = true ∧ 1 < demoTuple.k ∧ demoTuple.getLimb 1 ≤ demoTuple.getT 1) ∧
    (demo.Inv ∧ demo.status.crtValid = true ∧ (∀ i < demo.k, demo.getT i < demo.getLimb i) ∧
      ¬ ∃ I ⊆ Finset.range demo.k, I.Nonempty ∧ ∏ i ∈ I, demo.getLimb i = demo.getX 3) ∧
    (({0, 1} : Finset Nat) ⊆ Finset.range demo.k ∧ ({0, 1} : Finset Nat).Nonempty ∧
      ∏ i ∈ {0, 1}, demo.getLimb i = demo.getX 5) := by
  refine ⟨⟨fresh_inv, rfl⟩, ⟨demoTuple_inv, by decide⟩, ⟨demo_inv, by decide, by decide, ?_⟩, by decide⟩
  have : ∀ I ∈ (Finset.range demo.k).powerset, ¬ ∏ i ∈ I, demo.getLimb i = demo.getX 3 := by decide
  rintro ⟨I, hI, _, hp⟩
  exact this I (Finset.mem_powerset.2 hI) hp

/-- `demo` with the tuple of 102, the least value that wraps when rescaled to 15: `(102 + 3) div 7 = 15`
(48_rns_composer.md R189). -/
def demoWrap : State := { demo with t := [0, 2, 4, 9] }

/-- What the statement asks of the limbs kept, `v` and `q`, and that the rescaling runs: within the range for 23 to
15. -/
theorem witness_RescaleLaws :
    demo.Inv ∧ demo.status.crtValid = true ∧ ({0, 1} : Finset Nat) ⊆ Finset.range demo.k ∧
    ({0, 1} : Finset Nat).Nonempty ∧ ∏ i ∈ {0, 1}, demo.getLimb i = demo.getX 5 ∧ 23 < demo.bigM ∧
    (∀ i < demo.k, demo.getT i = 23 % demo.getLimb i) ∧
    3 = (23 + demo.bigM / demo.getX 5 / 2) / (demo.bigM / demo.getX 5) ∧ ∃ t, exec (.rescale 0 5) demo = .next t :=
  ⟨demo_inv, by decide, by decide, by decide, by decide, by decide, by decide, by decide, _, rfl⟩

/-- The clause `q = to` of the same statement, at its bound `v = BIGM - D div 2 = 102`, and its result 0. -/
theorem witness_RescaleLaws_wrap :
    demoWrap.Inv ∧ demoWrap.status.crtValid = true ∧ ({0, 1} : Finset Nat) ⊆ Finset.range demoWrap.k ∧
    ({0, 1} : Finset Nat).Nonempty ∧ ∏ i ∈ {0, 1}, demoWrap.getLimb i = demoWrap.getX 5 ∧ 102 < demoWrap.bigM ∧
    (∀ i < demoWrap.k, demoWrap.getT i = 102 % demoWrap.getLimb i) ∧
    demoWrap.getX 5 = (102 + demoWrap.bigM / demoWrap.getX 5 / 2) / (demoWrap.bigM / demoWrap.getX 5) ∧
    ∃ t, exec (.rescale 0 5) demoWrap = .next t ∧ t.getX 0 = 0 :=
  ⟨demo_tuple_inv (by decide) (by decide), by decide, by decide, by decide, by decide, by decide, by decide, by decide,
    _, rfl, by decide⟩

/-- The clause `to = BIGM`: all limbs kept, the value and the tuple as they were. -/
theorem witness_RescaleLaws_identity :
    demo.Inv ∧ demo.status.crtValid = true ∧ ({0, 1, 2} : Finset Nat) ⊆ Finset.range demo.k ∧
    ({0, 1, 2} : Finset Nat).Nonempty ∧ ∏ i ∈ {0, 1, 2}, demo.getLimb i = demo.getX 9 ∧ 23 < demo.bigM ∧
    (∀ i < demo.k, demo.getT i = 23 % demo.getLimb i) ∧ demo.getX 9 = demo.bigM ∧
    23 = (23 + demo.bigM / demo.getX 9 / 2) / (demo.bigM / demo.getX 9) ∧
    ∃ t, exec (.rescale 0 9) demo = .next t ∧ t.getX 0 = 23 ∧ t.t = demo.t :=
  ⟨demo_inv, by decide, by decide, by decide, by decide, by decide, by decide, by decide, by decide, _, rfl, by decide,
    by decide⟩

end Sys2Proof.Tests
end

section
/-! PROOF. What one step answers on a legal instance: one equation per event the host can have next (00_scope.md R7, R8;
70_reset_and_hazards.md R230), and the statement of 00_scope.md that follows from them. -/

namespace Sys2Proof.Machine

open Sys2Proof

section Equations

variable {s : State} {cmd : CmdWord} {d : Nat} {rest : List HostEvent}

theorem step_of_idle (hl : s.params.legal = true) (hp : s.pending = []) : step s = .next s := by
  simp only [step, hl, hp, if_true]

theorem step_of_reset (hl : s.params.legal = true) (hp : s.pending = .reset :: rest) :
    step s = .next (s.hostReset rest) := by
  simp only [step, hl, hp, if_true]

theorem step_of_decode_ok {i : Instr} (hl : s.params.legal = true) (hp : s.pending = .command cmd d :: rest)
    (hd : decode cmd = .ok i) : step s = exec i (s.issue d rest) := by
  simp only [step, hl, hp, hd, if_true]

theorem step_of_decode_error {e : DecodeError} (hl : s.params.legal = true)
    (hp : s.pending = .command cmd d :: rest) (hd : decode cmd = .error e) :
    step s = raise (s.issue d rest) .illegalCommand := by
  simp only [step, hl, hp, hd, if_true]

end Equations

/-- The state a command is executed on, written out: the host's list and the datum port are all that changes. -/
theorem State.issue_eq (s : State) (d : Nat) (rest : List HostEvent) :
    s.issue d rest = { s with pending := rest, wdata := d % 2 ^ s.params.wm } := rfl

/-- Settles O5: the equation of a step whose word decodes, with the issued state written out. -/
theorem stepRunsDecodedCommand : Obligations.StepRunsDecodedCommand := by
  intro s cmd d rest i hlegal hpending hdecode
  rw [← State.issue_eq s d rest]
  exact step_of_decode_ok hlegal hpending hdecode

end Sys2Proof.Machine
end

section
/-! PROOF. `TBUILD` finds a root wherever `2n` divides `MOD - 1`, so that it never answers `NoPrimitiveRoot`
(44_twiddle_rom.md R149). -/

namespace Sys2Proof.Machine

open Sys2Proof

/-- A non-square `g` has `g^((p-1)/2) = -1`, so `g^((p-1)/(2n))` is a root. -/
theorem exists_isRoot {n p : Nat} (hp : p.Prime) (hd : 2 * n ∣ p - 1) : ∃ psi, isRoot psi n p = true := by
  have : Fact p.Prime := ⟨hp⟩
  obtain ⟨c, hc⟩ := hd
  have htwo : 2 ≤ p := hp.two_le
  have heven : p - 1 = 2 * (c * n) := by rw [hc]; ring
  have hhalf : c * n = p / 2 := by omega
  have hchar : ringChar (ZMod p) ≠ 2 := by
    rw [ZMod.ringChar_zmod_n]
    omega
  obtain ⟨g, hg⟩ := FiniteField.exists_nonsquare hchar
  have hg0 : g ≠ 0 := by rintro rfl; exact hg (IsSquare.zero)
  have hroot : (g ^ c) ^ n = -1 := by
    rw [← pow_mul, hhalf]
    exact (ZMod.pow_div_two_eq_neg_one_or_one p hg0).resolve_left fun h => hg ((ZMod.euler_criterion p hg0).2 h)
  refine ⟨(g ^ c).val, (Laws.isRoot_iff _ _ _).2 ⟨?_, ZMod.val_lt _, ?_⟩⟩
  · exact Nat.pos_of_ne_zero fun h => pow_ne_zero c hg0 ((ZMod.val_eq_zero _).1 h)
  · have hmod : (((g ^ c).val ^ n : Nat) : ZMod p) = ((p - 1 : Nat) : ZMod p) := by
      rw [Nat.cast_pow, ZMod.natCast_zmod_val, hroot, Nat.cast_sub (by omega)]
      simp
    have := (ZMod.natCast_eq_natCast_iff' _ _ _).1 hmod
    rwa [Nat.mod_eq_of_lt (by omega : p - 1 < p)] at this

theorem psiSelect_ne_none {P : Params} {n p : Nat} (hp : p.Prime) (hd : 2 * n ∣ p - 1) : psiSelect P n p ≠ none := by
  intro h
  obtain ⟨psi, hpsi⟩ := exists_isRoot hp hd
  exact absurd hpsi (by simp [Laws.psiSelect_none h psi])

end Sys2Proof.Machine
end

section
/-! PROOF. What a command can do, said once for every command: it raises an error of its row of 60_exceptions.md
R201, or it passes its checks and its one effect is followed by the completion update. -/

namespace Sys2Proof.Machine

open Sys2Proof

/-- The effect of a command that passes its checks in the state `s`: `s.Effect i u v` says that the completion update is
made on `u` with `rdata = v`. One constructor per row of the opcode map (30_encoding.md R84), with the checks passed as
hypotheses. -/
inductive State.Effect (s : State) : Instr → State → Nat → Prop where
  | nop : s.Effect .nop s 0
  | setr (ra : RegNum) : s.Effect (.setr ra) (s.setX ra s.wdata) 0
  | getr (ra : RegNum) : s.Effect (.getr ra) s (s.getX ra)
  | mov (ra rb : RegNum) : s.Effect (.mov ra rb) (s.setX ra (s.getX rb)) 0
  | getc {imm : Imm16} {v : Nat} (read : s.csr imm.toNat = some v) : s.Effect (.getc imm) s (s.fit v)
  | setctx {ra : RegNum} {imm : Imm16} (degree : imm.toNat ≤ s.params.lognmax) (two_le : 2 ≤ s.getX ra)
      (width : s.getX ra < 2 ^ s.params.w) : s.Effect (.setctx ra imm) (s.setContext (s.getX ra) imm.toNat) 0
  | ldc {ra : RegNum} {rb : BufNum} {imm : Imm16} (ctx : s.status.ctxValid = true)
      (bound : (s.hasBuf rb && decide (imm.toNat < s.n)) = true) :
      s.Effect (.ldc ra rb imm) (s.setX ra (s.bufWord rb imm.toNat)) 0
  | stc {ra : RegNum} {rb : BufNum} {imm : Imm16} (ctx : s.status.ctxValid = true)
      (bound : (s.hasBuf rb && decide (imm.toNat < s.n)) = true) (canon : s.canonX ra = true) :
      s.Effect (.stc ra rb imm) (s.setBufWord rb imm.toNat (s.getX ra)) 0
  | sett {ra : RegNum} {imm : Imm16} (bound : imm.toNat < s.params.kmax) (width : s.getX ra < 2 ^ s.params.w) :
      s.Effect (.sett ra imm) (s.setT imm.toNat (s.getX ra)) 0
  | gett {ra : RegNum} {imm : Imm16} (bound : imm.toNat < s.params.kmax) :
      s.Effect (.gett ra imm) (s.setX ra (s.getT imm.toNat)) 0
  | clrerr : s.Effect .clrerr s.clearSticky 0
  | add {ra rb rc : RegNum} (ctx : s.status.ctxValid = true) (canon : (s.canonX rb && s.canonX rc) = true) :
      s.Effect (.add ra rb rc) (s.setX ra (modadd (s.getX rb) (s.getX rc) s.modulus)) 0
  | sub {ra rb rc : RegNum} (ctx : s.status.ctxValid = true) (canon : (s.canonX rb && s.canonX rc) = true) :
      s.Effect (.sub ra rb rc) (s.setX ra (modsub (s.getX rb) (s.getX rc) s.modulus)) 0
  | neg {ra rb : RegNum} (ctx : s.status.ctxValid = true) (canon : s.canonX rb = true) :
      s.Effect (.neg ra rb) (s.setX ra (modneg (s.getX rb) s.modulus)) 0
  | mul {ra rb rc : RegNum} (ctx : s.status.ctxValid = true) (canon : (s.canonX rb && s.canonX rc) = true) :
      s.Effect (.mul ra rb rc) (s.setX ra (modmul (s.getX rb) (s.getX rc) s.modulus)) 0
  | pow {ra rb rc : RegNum} (ctx : s.status.ctxValid = true) (canon : s.canonX rb = true) :
      s.Effect (.pow ra rb rc) (s.setX ra (modpow (s.getX rb) (s.getX rc) s.modulus)) 0
  | pwmul {ra rb : BufNum} (ctx : s.status.ctxValid = true) (bound : (s.hasBuf ra && s.hasBuf rb) = true)
      (canon : (s.canonBuf ra && s.canonBuf rb) = true) :
      s.Effect (.pwmul ra rb)
        (s.setBufWords ra ((List.range s.n).map fun i => modmul (s.bufWord ra i) (s.bufWord rb i) s.modulus)) 0
  | inv {ra rb : RegNum} (ctx : s.status.ctxValid = true) (canon : s.canonX rb = true)
      (unit : Nat.gcd (s.getX rb) s.modulus = 1) : s.Effect (.inv ra rb) (s.setX ra (modinv (s.getX rb) s.modulus)) 0
  | tbuild {psi : Nat} (ctx : s.status.ctxValid = true) (prime : s.modulus.Prime)
      (divides : 2 * s.n ∣ s.modulus - 1) (root : psiSelect s.params s.n s.modulus = some psi) :
      s.Effect .tbuild
        (s.setTable psi (modinv psi s.modulus) (modinv (s.n % s.modulus) s.modulus)
          (powersOf psi (2 * s.n) s.modulus)) 0
  | twd {ra : RegNum} {imm : Imm16} (tbl : s.status.tblValid = true) (bound : imm.toNat < 2 * s.n) :
      s.Effect (.twd ra imm) (s.setX ra (s.romWord imm.toNat)) 0
  | brev {ra rb : RegNum} (ctx : s.status.ctxValid = true) (bound : s.getX rb < s.n) :
      s.Effect (.brev ra rb) (s.setX ra (s.fit (Machine.brev s.logn (s.getX rb)))) 0
  | brperm {ra : BufNum} (ctx : s.status.ctxValid = true) (bound : s.hasBuf ra = true) :
      s.Effect (.brperm ra) (s.setBufWords ra (permuteWords s.logn (s.bufWords ra))) 0
  | bfly {ra rb rc : RegNum} (ne : ra ≠ rb) (ctx : s.status.ctxValid = true)
      (canon : (s.canonX ra && s.canonX rb && s.canonX rc) = true) :
      s.Effect (.bfly ra rb rc)
        ((s.setX ra (bflyMap (s.getX ra) (s.getX rb) (s.getX rc) s.modulus).1).setX rb
          (bflyMap (s.getX ra) (s.getX rb) (s.getX rc) s.modulus).2) 0
  | nttfwd {ra : BufNum} (tbl : s.status.tblValid = true) (bound : s.hasBuf ra = true)
      (canon : s.canonBuf ra = true) :
      s.Effect (.nttfwd ra) (s.setBufWords ra (forwardWords s.romWord s.logn s.modulus (s.bufWords ra))) 0
  | nttinv {ra : BufNum} (tbl : s.status.tblValid = true) (bound : s.hasBuf ra = true)
      (canon : s.canonBuf ra = true) :
      s.Effect (.nttinv ra) (s.setBufWords ra (inverseWords s.romWord s.nInv s.logn s.modulus (s.bufWords ra))) 0
  | setlimb {ra : RegNum} {imm : Imm16} (bound : imm.toNat < s.params.kmax) (two_le : 2 ≤ s.getX ra)
      (width : s.getX ra < 2 ^ s.params.w) : s.Effect (.setlimb ra imm) (s.setLimb imm.toNat (s.getX ra)) 0
  | crtbuild {imm : Imm16} (pos : 1 ≤ imm.toNat) (bound : imm.toNat ≤ s.params.kmax)
      (limbs : ∀ i < imm.toNat, 2 ≤ s.getLimb i) (coprime : (s.firstLimbs imm.toNat).Pairwise Nat.Coprime) :
      s.Effect (.crtbuild imm)
        (s.setCrt imm.toNat (product (s.firstLimbs imm.toNat))
          ((s.firstLimbs imm.toNat).map (crtE (product (s.firstLimbs imm.toNat))))) 0
  | compose {ra : RegNum} (crt : s.status.crtValid = true) (canon : s.canonTuple = true) :
      s.Effect (.compose ra) (s.setX ra s.composed) 0
  | decomp {ra : RegNum} (crt : s.status.crtValid = true) :
      s.Effect (.decomp ra) (s.setTuple (decompose (s.getX ra) s.limbs)) 0
  | rescale {ra rb : RegNum} (crt : s.status.crtValid = true) (canon : s.canonTuple = true)
      (kept : ∃ m ∈ s.limbs, keptLimb (s.getX rb) m = true) (target : keptProduct (s.getX rb) s.limbs = s.getX rb) :
      s.Effect (.rescale ra rb)
        ((s.setX ra (rescaled s.composed s.bigM (s.getX rb))).setTuple
          (rescaledTuple (rescaled s.composed s.bigM (s.getX rb)) (s.getX rb) s.limbs)) 0

/-- An outcome is one of the two ends of a command: an error of `errs`, never the unreachable `NoPrimitiveRoot`
(44_twiddle_rom.md R149), or the completion update after an effect that `P` allows. -/
def State.Ends (s : State) (errs : List Err) (P : State → Nat → Prop) (o : Out) : Prop :=
  (∃ e ∈ errs, e ≠ .noPrimitiveRoot ∧ o = raise s e) ∨ ∃ u v, P u v ∧ o = finish u v

/-! One rule per piece a command is made of. That the error raised stands in the command's row of R201 is checked by
running `Instr.errors`. -/

section Rules

variable {s : State} {errs : List Err} {P : State → Nat → Prop} {body : Out}

theorem finish_ends {u : State} {v : Nat} (h : P u v) : s.Ends errs P (finish u v) := .inr ⟨u, v, h, rfl⟩

theorem raise_ends {e : Err} (h : errs.contains e = true := by rfl) (hne : e ≠ .noPrimitiveRoot := by nofun) :
    s.Ends errs P (raise s e) :=
  .inl ⟨e, List.contains_iff_mem.1 h, hne, rfl⟩

/-- A check that raises `e` where it fails. -/
theorem ite_raise_ends {c : Prop} [Decidable c] {e : Err} (hb : ¬ c → s.Ends errs P body)
    (h : errs.contains e = true := by rfl) (hne : e ≠ .noPrimitiveRoot := by nofun) :
    s.Ends errs P (if c then raise s e else body) := by
  split
  · exact raise_ends h hne
  · exact hb ‹_›

/-- A check that goes on where it holds, and raises `e` where it fails. -/
theorem ite_body_ends {ok : Bool} {e : Err} (hb : ok = true → s.Ends errs P body) (h : errs.contains e = true)
    (hne : e ≠ .noPrimitiveRoot := by nofun) : s.Ends errs P (if ok then body else raise s e) := by
  split
  · exact hb ‹_›
  · exact raise_ends h hne

theorem needContext_ends (hb : s.status.ctxValid = true → s.Ends errs P body)
    (h : errs.contains .notConfigured = true := by rfl) : s.Ends errs P (needContext s body) := ite_body_ends hb h

theorem needTable_ends (hb : s.status.tblValid = true → s.Ends errs P body)
    (h : errs.contains .notConfigured = true := by rfl) : s.Ends errs P (needTable s body) := ite_body_ends hb h

theorem needCrt_ends (hb : s.status.crtValid = true → s.Ends errs P body)
    (h : errs.contains .notConfigured = true := by rfl) : s.Ends errs P (needCrt s body) := ite_body_ends hb h

theorem needBound_ends {ok : Bool} (hb : ok = true → s.Ends errs P body)
    (h : errs.contains .indexOutOfRange = true := by rfl) : s.Ends errs P (needBound s ok body) := ite_body_ends hb h

theorem needCanonical_ends {ok : Bool} (hb : ok = true → s.Ends errs P body)
    (h : errs.contains .nonCanonical = true := by rfl) : s.Ends errs P (needCanonical s ok body) := ite_body_ends hb h

theorem residueOp1_ends {f : Nat → Nat → Nat} {ra rb : RegNum}
    (hb : s.status.ctxValid = true → s.canonX rb = true → P (s.setX ra (f (s.getX rb) s.modulus)) 0)
    (h1 : errs.contains .notConfigured = true := by rfl) (h2 : errs.contains .nonCanonical = true := by rfl) :
    s.Ends errs P (residueOp1 f ra rb s) :=
  needContext_ends (fun ctx => needCanonical_ends (fun canon => finish_ends (hb ctx canon)) h2) h1

theorem residueOp2_ends {f : Nat → Nat → Nat → Nat} {ra rb rc : RegNum}
    (hb : s.status.ctxValid = true → (s.canonX rb && s.canonX rc) = true →
      P (s.setX ra (f (s.getX rb) (s.getX rc) s.modulus)) 0)
    (h1 : errs.contains .notConfigured = true := by rfl) (h2 : errs.contains .nonCanonical = true := by rfl) :
    s.Ends errs P (residueOp2 f ra rb rc s) :=
  needContext_ends (fun ctx => needCanonical_ends (fun canon => finish_ends (hb ctx canon)) h2) h1

end Rules

/-! The commands with checks of their own -/

/-- The check `SETCTX` and `SETLIMB` make of a modulus (40_context_and_data.md R105, 47_crt_reconstructor.md R176). -/
theorem modulus_of_not_bad {v w : Nat} (h : ¬ (v < 2 ∨ 2 ^ w ≤ v)) : 2 ≤ v ∧ v < 2 ^ w := by
  simpa only [not_or, not_lt, not_le] using h

theorem execGetc_ends (imm : Imm16) (s : State) :
    s.Ends (Instr.getc imm).errors (s.Effect (.getc imm)) (execGetc imm s) := by
  unfold execGetc
  split
  · exact finish_ends (.getc ‹_›)
  · exact raise_ends

theorem execSetctx_ends (ra : RegNum) (imm : Imm16) (s : State) :
    s.Ends (Instr.setctx ra imm).errors (s.Effect (.setctx ra imm)) (execSetctx ra imm s) :=
  ite_raise_ends fun degree => ite_raise_ends fun modulus =>
    have ⟨two_le, width⟩ := modulus_of_not_bad modulus
    finish_ends (.setctx (not_lt.1 degree) two_le width)

theorem execSetlimb_ends (ra : RegNum) (imm : Imm16) (s : State) :
    s.Ends (Instr.setlimb ra imm).errors (s.Effect (.setlimb ra imm)) (execSetlimb ra imm s) :=
  needBound_ends fun bound => ite_raise_ends fun modulus =>
    have ⟨two_le, width⟩ := modulus_of_not_bad modulus
    finish_ends (.setlimb (of_decide_eq_true bound) two_le width)

theorem execCrtbuild_ends (imm : Imm16) (s : State) :
    s.Ends (Instr.crtbuild imm).errors (s.Effect (.crtbuild imm)) (execCrtbuild imm s) :=
  ite_raise_ends fun count => ite_raise_ends fun small => ite_raise_ends fun coprime => by
    have limbs : ∀ i < imm.toNat, 2 ≤ s.getLimb i := by
      simpa [State.firstLimbs, Nat.succ_le_iff] using small
    exact finish_ends (.crtbuild (by omega) (by omega) limbs
      ((Laws.pairwiseCoprime_iff _).1 (Bool.eq_true_of_not_eq_false coprime)))

theorem execInv_ends (ra rb : RegNum) (s : State) :
    s.Ends (Instr.inv ra rb).errors (s.Effect (.inv ra rb)) (execInv ra rb s) :=
  needContext_ends fun ctx => needCanonical_ends fun canon =>
    ite_raise_ends fun unit => finish_ends (.inv ctx canon (not_not.1 unit))

theorem execBfly_ends (ra rb rc : RegNum) (s : State) :
    s.Ends (Instr.bfly ra rb rc).errors (s.Effect (.bfly ra rb rc)) (execBfly ra rb rc s) :=
  ite_raise_ends fun ne => needContext_ends fun ctx => needCanonical_ends fun canon =>
    finish_ends (.bfly ne ctx canon)

theorem execRescale_ends (ra rb : RegNum) (s : State) :
    s.Ends (Instr.rescale ra rb).errors (s.Effect (.rescale ra rb)) (execRescale ra rb s) :=
  needCrt_ends fun crt => needCanonical_ends fun canon => ite_raise_ends fun h => by
    obtain ⟨kept, target⟩ := not_or.1 h
    exact finish_ends (.rescale crt canon (by simpa using kept) (not_not.1 target))

theorem execTbuild_ends (s : State) : s.Ends Instr.tbuild.errors (s.Effect .tbuild) (execTbuild s) :=
  needContext_ends fun ctx => ite_raise_ends fun notPrime => ite_raise_ends fun notDvd => by
    have prime := (Laws.isPrime_iff _).1 (Bool.eq_true_of_not_eq_false notPrime)
    have divides := Nat.dvd_of_mod_eq_zero (not_not.1 notDvd)
    split
    · exact absurd ‹_› (psiSelect_ne_none prime divides)
    · exact finish_ends (.tbuild ctx prime divides ‹_›)

/-! Every command -/

/-- Every command ends in an error of its row of 60_exceptions.md R201 or completes its effect, and it always ends. -/
theorem exec_ends (i : Instr) (s : State) : s.Ends i.errors (s.Effect i) (exec i s) := by
  cases i with
  | nop => exact finish_ends .nop
  | setr ra => exact finish_ends (.setr ra)
  | getr ra => exact finish_ends (.getr ra)
  | mov ra rb => exact finish_ends (.mov ra rb)
  | getc imm => exact execGetc_ends imm s
  | setctx ra imm => exact execSetctx_ends ra imm s
  | ldc ra rb imm => exact needContext_ends fun ctx => needBound_ends fun bound => finish_ends (.ldc ctx bound)
  | stc ra rb imm =>
    exact needContext_ends fun ctx => needBound_ends fun bound =>
      needCanonical_ends fun canon => finish_ends (.stc ctx bound canon)
  | sett ra imm =>
    exact needBound_ends fun bound => needCanonical_ends fun width =>
      finish_ends (.sett (of_decide_eq_true bound) (of_decide_eq_true width))
  | gett ra imm => exact needBound_ends fun bound => finish_ends (.gett (of_decide_eq_true bound))
  | clrerr => exact finish_ends .clrerr
  | add ra rb rc => exact residueOp2_ends .add
  | sub ra rb rc => exact residueOp2_ends .sub
  | neg ra rb => exact residueOp1_ends .neg
  | mul ra rb rc => exact residueOp2_ends .mul
  | pow ra rb rc => exact needContext_ends fun ctx => needCanonical_ends fun canon => finish_ends (.pow ctx canon)
  | pwmul ra rb =>
    exact needContext_ends fun ctx => needBound_ends fun bound =>
      needCanonical_ends fun canon => finish_ends (.pwmul ctx bound canon)
  | inv ra rb => exact execInv_ends ra rb s
  | tbuild => exact execTbuild_ends s
  | twd ra imm =>
    exact needTable_ends fun tbl => needBound_ends fun bound => finish_ends (.twd tbl (of_decide_eq_true bound))
  | brev ra rb =>
    exact needContext_ends fun ctx => needBound_ends fun bound => finish_ends (.brev ctx (of_decide_eq_true bound))
  | brperm ra => exact needContext_ends fun ctx => needBound_ends fun bound => finish_ends (.brperm ctx bound)
  | bfly ra rb rc => exact execBfly_ends ra rb rc s
  | nttfwd ra =>
    exact needTable_ends fun tbl => needBound_ends fun bound =>
      needCanonical_ends fun canon => finish_ends (.nttfwd tbl bound canon)
  | nttinv ra =>
    exact needTable_ends fun tbl => needBound_ends fun bound =>
      needCanonical_ends fun canon => finish_ends (.nttinv tbl bound canon)
  | setlimb ra imm => exact execSetlimb_ends ra imm s
  | crtbuild imm => exact execCrtbuild_ends imm s
  | compose ra => exact needCrt_ends fun crt => needCanonical_ends fun canon => finish_ends (.compose crt canon)
  | decomp ra => exact needCrt_ends fun crt => finish_ends (.decomp crt)
  | rescale ra rb => exact execRescale_ends ra rb s

/-- What the next state of a command can be. -/
theorem exec_next_cases {i : Instr} {s t : State} (h : exec i s = .next t) :
    (∃ e ∈ i.errors, e ≠ .noPrimitiveRoot ∧ t = s.raised e) ∨ ∃ u v, s.Effect i u v ∧ t = u.completed v := by
  rcases exec_ends i s with ⟨e, he, hne, ho⟩ | ⟨u, v, hu, ho⟩
  · exact .inl ⟨e, he, hne, ((raise_next s t e).1 (ho.symm.trans h)).symm⟩
  · exact .inr ⟨u, v, hu, ((finish_next u t v).1 (ho.symm.trans h)).symm⟩

end Sys2Proof.Machine
end

section
/-! PROOF. What a command leaves unchanged: the registers, tuple registers, words and control registers that no
operand of its effect names (10_state.md R22, R24, R27, R29, R30). -/

namespace Sys2Proof.Machine

open Sys2Proof

/-! Lengths of what a command writes -/

@[simp] theorem State.limbs_length (s : State) : s.limbs.length = s.k := by simp [State.limbs]

@[simp] theorem decompose_length (v : Nat) (ms : List Nat) : (decompose v ms).length = ms.length := by simp [decompose]

@[simp] theorem rescaledTuple_length (v target : Nat) (ms : List Nat) :
    (rescaledTuple v target ms).length = ms.length := by simp [rescaledTuple]

@[simp] theorem powersOf_length (psi len p : Nat) : (powersOf psi len p).length = len := by simp [powersOf]

theorem State.getX_setX_ne (s : State) {r q : RegNum} (v : Nat) (h : q ≠ r) : (s.setX r v).getX q = s.getX q := by
  rw [State.getX_setX, if_neg h]

/-- A store to one entry leaves every other entry alone, even where there is no such entry. -/
theorem getD_set_ne (vs : List Nat) {i j : Nat} (v : Nat) (h : j ≠ i) : (vs.set i v).getD j 0 = vs.getD j 0 := by
  rw [List.getD_eq_getElem?_getD, List.getElem?_set_ne h.symm, List.getD_eq_getElem?_getD]

/-! The effect of each command -/

section Frame

variable {s u : State} {i : Instr} {v : Nat}

theorem State.Effect.getX_eq (h : s.Effect i u v) {r : RegNum} (hr : r ∉ i.writesX) : u.getX r = s.getX r := by
  cases h with
  | setr | mov | ldc | gett | add | sub | neg | mul | pow | inv | twd | brev | compose =>
    exact s.getX_setX_ne _ (List.ne_of_not_mem_cons hr)
  | rescale =>
    rw [State.setTuple_getX]
    exact s.getX_setX_ne _ (List.ne_of_not_mem_cons hr)
  | bfly =>
    obtain ⟨hra, hrb⟩ : r ≠ _ ∧ r ≠ _ := by simpa [Instr.writesX] using hr
    rw [State.getX_setX_ne _ _ hrb, State.getX_setX_ne _ _ hra]
  | _ => rfl

theorem State.Effect.getT_eq (h : s.Effect i u v) {j : Nat} (hj : ¬ i.writesT s j) : u.getT j = s.getT j := by
  cases h with
  | sett => exact getD_set_ne s.t _ hj
  | decomp =>
    have hk : ¬ j < s.k := hj
    rw [State.getT_setTuple, if_neg (by simpa using hk)]
  | rescale =>
    have hk : ¬ j < s.k := hj
    rw [State.getT_setTuple, if_neg (by simpa using hk), State.setX_getT]
  | _ => rfl

theorem State.Effect.bufWord_eq (h : s.Effect i u v) {b : BufNum} {j : Nat} (hj : ¬ i.writesBuf s b j) :
    u.bufWord b j = s.bufWord b j := by
  cases h with
  | stc => exact s.bufWord_setBufWord_ne _ _ _ b j hj
  | pwmul => exact s.bufWord_setBufWords_ne _ _ b j (by rwa [List.length_map, List.length_range])
  | brperm => exact s.bufWord_setBufWords_ne _ _ b j (by rwa [Laws.permuteWords_length])
  | nttfwd => exact s.bufWord_setBufWords_ne _ _ b j (by rwa [Laws.forwardWords_length])
  | nttinv => exact s.bufWord_setBufWords_ne _ _ b j (by rwa [Laws.inverseWords_length])
  | _ => rfl

theorem State.Effect.romWord_eq (h : s.Effect i u v) {j : Nat} (hj : ¬ (i = .tbuild ∧ j < 2 * s.n)) :
    u.romWord j = s.romWord j := by
  cases h with
  | tbuild =>
    have hn : ¬ j < 2 * s.n := fun hlt => hj ⟨rfl, hlt⟩
    rw [State.romWord_setTable, if_neg (by rwa [powersOf_length])]
  | _ => rfl

theorem State.Effect.params_eq (h : s.Effect i u v) : u.params = s.params := by cases h <;> rfl

theorem State.Effect.context_eq (h : s.Effect i u v) (hi : ∀ ra imm, i ≠ .setctx ra imm) :
    u.modulus = s.modulus ∧ u.logn = s.logn := by
  cases h with
  | setctx => exact absurd rfl (hi _ _)
  | _ => exact ⟨rfl, rfl⟩

theorem State.Effect.table_eq (h : s.Effect i u v) (hi : i ≠ .tbuild) :
    u.psi = s.psi ∧ u.psiInv = s.psiInv ∧ u.nInv = s.nInv := by
  cases h with
  | tbuild => exact absurd rfl hi
  | _ => exact ⟨rfl, rfl, rfl⟩

theorem State.Effect.crt_eq (h : s.Effect i u v) (hi : ∀ imm, i ≠ .crtbuild imm) :
    u.k = s.k ∧ u.bigM = s.bigM ∧ ∀ j, u.getCrte j = s.getCrte j := by
  cases h with
  | crtbuild => exact absurd rfl (hi _)
  | _ => exact ⟨rfl, rfl, fun _ => rfl⟩

theorem State.Effect.getLimb_eq (h : s.Effect i u v) {j : Nat}
    (hj : ∀ ra imm, i = .setlimb ra imm → j ≠ imm.toNat) : u.getLimb j = s.getLimb j := by
  cases h with
  | setlimb => exact getD_set_ne s.limb _ (hj _ _ rfl)
  | _ => rfl

end Frame

/-! The statements: an error changes none of this (60_exceptions.md R210), and the completion update neither. -/

/-- Settles O23: by the effect's frame of `x[]`. -/
theorem registersWrittenOnlyByTheirCommands : Obligations.RegistersWrittenOnlyByTheirCommands := by
  intro i s t r h hr
  rcases exec_next_cases h with ⟨e, -, -, rfl⟩ | ⟨u, v, hu, rfl⟩
  · exact s.raised_getX e r
  · exact hu.getX_eq hr

/-- Settles O24: by the effect's frames of the tuple, the buffers and the ROM. -/
theorem tupleAndMemoryWrittenOnlyByTheirCommands : Obligations.TupleAndMemoryWrittenOnlyByTheirCommands := by
  intro i s t h
  rcases exec_next_cases h with ⟨e, -, -, rfl⟩ | ⟨u, v, hu, rfl⟩
  · exact ⟨fun j _ => s.raised_getT e j, fun b j _ => s.raised_bufWord e b j, fun j _ => s.raised_romWord e j⟩
  · exact ⟨fun _ => hu.getT_eq, fun _ _ => hu.bufWord_eq, fun _ => hu.romWord_eq⟩

/-- Settles O25: by the effect's frames of the control registers, row by row of 10_state.md R30. -/
theorem controlRegistersWrittenOnlyByTheirCommands : Obligations.ControlRegistersWrittenOnlyByTheirCommands := by
  intro i s t h
  rcases exec_next_cases h with ⟨e, -, -, rfl⟩ | ⟨u, v, hu, rfl⟩
  · exact ⟨rfl, fun _ => ⟨rfl, rfl⟩, fun _ => ⟨rfl, rfl, rfl⟩, fun _ => ⟨rfl, rfl, fun _ => rfl⟩, fun _ _ => rfl⟩
  · exact ⟨hu.params_eq, hu.context_eq, hu.table_eq, hu.crt_eq, fun _ => hu.getLimb_eq⟩

end Sys2Proof.Machine
end

section
/-! PROOF. The arithmetic behind the invariant: the coefficients of a coprime system (47_crt_reconstructor.md R177,
R178), the inverses of a table (44_twiddle_rom.md R145), and words that stay below the modulus. -/

namespace Sys2Proof.Laws

open Sys2Proof Sys2Proof.Machine

/-! A system of pairwise coprime limbs `f 0, .., f (k-1)` -/

theorem prod_map_range (f : Nat → Nat) (k : Nat) : ((List.range k).map f).prod = ∏ i ∈ Finset.range k, f i := rfl

theorem coprime_of_pairwise_map_range {f : Nat → Nat} {k : Nat} (h : ((List.range k).map f).Pairwise Nat.Coprime)
    {i j : Nat} (hi : i < k) (hj : j < k) (hne : i ≠ j) : (f i).Coprime (f j) := by
  have hlt : ∀ {a b : Nat}, a < b → b < k → (f a).Coprime (f b) := fun {a b} hab hb => by
    have := List.pairwise_iff_getElem.1 h a b (by simp; omega) (by simpa using hb) hab
    rwa [List.getElem_map, List.getElem_map, List.getElem_range, List.getElem_range] at this
  rcases Nat.lt_or_gt_of_ne hne with hij | hji
  · exact hlt hij hj
  · exact (hlt hji hi).symm

section Coefficients

variable {f : Nat → Nat} {k : Nat}

/-- The product without limb `i` is the quotient `crt_e` works with. -/
theorem prod_range_div (hf : ∀ i < k, 2 ≤ f i) {i : Nat} (hi : i < k) :
    (∏ j ∈ Finset.range k, f j) / f i = ∏ j ∈ (Finset.range k).erase i, f j := by
  have hpos : 0 < f i := by have := hf i hi; omega
  rw [← Finset.mul_prod_erase _ f (Finset.mem_range.2 hi), Nat.mul_div_cancel_left _ hpos]

theorem prod_range_pos (hf : ∀ i < k, 2 ≤ f i) : 0 < ∏ j ∈ Finset.range k, f j :=
  Finset.prod_pos fun i hi => by have := hf i (Finset.mem_range.1 hi); omega

theorem crtE_lt (hf : ∀ i < k, 2 ≤ f i) (m : Nat) : crtE (∏ j ∈ Finset.range k, f j) m < ∏ j ∈ Finset.range k, f j :=
  Nat.mod_lt _ (prod_range_pos hf)

/-- A coefficient is 1 modulo its own limb. -/
theorem crtE_mod_own (hf : ∀ i < k, 2 ≤ f i) (hco : ∀ i < k, ∀ j < k, i ≠ j → (f i).Coprime (f j)) {i : Nat}
    (hi : i < k) : crtE (∏ j ∈ Finset.range k, f j) (f i) % f i = 1 := by
  have hcop : (∏ j ∈ (Finset.range k).erase i, f j).Coprime (f i) :=
    Nat.Coprime.prod_left fun j hj =>
      hco j (Finset.mem_range.1 (Finset.mem_of_mem_erase hj)) i hi (Finset.ne_of_mem_erase hj)
  rw [crtE, Nat.mod_mod_of_dvd _ (Finset.dvd_prod_of_mem f (Finset.mem_range.2 hi)), prod_range_div hf hi,
    ← Nat.mod_mul_mod]
  exact modinv_spec _ _ (hf i hi) (by rw [← Nat.gcd_rec]; exact hcop.symm)

/-- A coefficient is 0 modulo every other limb. -/
theorem crtE_mod_other (hf : ∀ i < k, 2 ≤ f i) {i j : Nat} (hi : i < k) (hj : j < k) (hne : i ≠ j) :
    crtE (∏ l ∈ Finset.range k, f l) (f i) % f j = 0 := by
  have hdvd : f j ∣ ∏ l ∈ (Finset.range k).erase i, f l :=
    Finset.dvd_prod_of_mem f (Finset.mem_erase.2 ⟨hne.symm, Finset.mem_range.2 hj⟩)
  rw [crtE, Nat.mod_mod_of_dvd _ (Finset.dvd_prod_of_mem f (Finset.mem_range.2 hj)), prod_range_div hf hi]
  exact Nat.mod_eq_zero_of_dvd (hdvd.mul_right _)

/-- The product of up to `kmax` limbs of `w` bits fits `kmax * w` bits. -/
theorem prod_range_lt {w kmax : Nat} (hk : 1 ≤ k) (hkmax : k ≤ kmax) (hw : ∀ i, f i < 2 ^ w) :
    ∏ i ∈ Finset.range k, f i < 2 ^ (kmax * w) :=
  calc ∏ i ∈ Finset.range k, f i
      ≤ (2 ^ w - 1) ^ k := by
        simpa using Finset.prod_le_pow_card (Finset.range k) f (2 ^ w - 1) fun i _ => Nat.le_sub_one_of_lt (hw i)
    _ < (2 ^ w) ^ k := Nat.pow_lt_pow_left (Nat.sub_one_lt (Nat.two_pow_pos w).ne') (by omega)
    _ = 2 ^ (k * w) := by rw [← pow_mul, Nat.mul_comm]
    _ ≤ 2 ^ (kmax * w) := Nat.pow_le_pow_right (by omega) (Nat.mul_le_mul_right w hkmax)

end Coefficients

/-! The inverses of a table -/

theorem mul_modinv_of_prime {a p : Nat} (hp : p.Prime) (hpos : 1 ≤ a) (hlt : a < p) : a * modinv a p % p = 1 :=
  modinv_spec a p hp.two_le (Nat.coprime_of_lt_prime (by omega) hlt hp).symm

/-- The degree of a prime with `2n ∣ p - 1` lies below it. -/
theorem degree_lt_of_dvd {n p : Nat} (hp : p.Prime) (hd : 2 * n ∣ p - 1) : n < p := by
  have := hp.two_le
  have := Nat.le_of_dvd (by omega) hd
  omega

/-! Words of a transform are canonical -/

section Words

variable {p : Nat} (hp : 0 < p) (rom : Nat → Nat)
include hp

theorem nttStage_lt (dir : Dir) (n s : Nat) (c : List Nat) : ∀ v ∈ nttStage rom dir n p s c, v < p := by
  refine List.forall_mem_map.2 fun q _ => ?_
  dsimp only
  split
  · exact modadd_lt _ _ hp
  · exact modsub_lt _ _ hp

theorem twistWords_lt (n : Nat) (c : List Nat) : ∀ v ∈ twistWords rom n p c, v < p :=
  List.forall_mem_map.2 fun _ _ => modmul_lt _ _ hp

theorem untwistWords_lt (n : Nat) (c : List Nat) : ∀ v ∈ untwistWords rom n p c, v < p :=
  List.forall_mem_map.2 fun _ _ => modmul_lt _ _ hp

end Words

theorem permuteWords_lt {l bound : Nat} {c : List Nat} (hb : 0 < bound) (hc : ∀ v ∈ c, v < bound) :
    ∀ v ∈ permuteWords l c, v < bound :=
  List.forall_mem_map.2 fun _ _ => getD_lt hc hb _

/-- The network's words come from its last stage, or for `n = 1` from its input. -/
theorem nttCore_lt {p : Nat} (hp : 0 < p) (rom : Nat → Nat) (dir : Dir) (l : Nat) {c : List Nat}
    (hc : ∀ v ∈ c, v < p) : ∀ v ∈ nttCore rom dir l p c, v < p := by
  cases l with
  | zero => exact permuteWords_lt hp hc
  | succ l =>
    rw [nttCore_eq, List.range_succ, List.foldl_append]
    exact nttStage_lt hp rom dir _ _ _

theorem forwardWords_lt {p : Nat} (hp : 0 < p) (rom : Nat → Nat) (l : Nat) (c : List Nat) :
    ∀ v ∈ forwardWords rom l p c, v < p :=
  nttCore_lt hp rom .fwd l (twistWords_lt hp rom _ c)

theorem inverseWords_lt {p : Nat} (hp : 0 < p) (rom : Nat → Nat) (nInv l : Nat) (c : List Nat) :
    ∀ v ∈ inverseWords rom nInv l p c, v < p :=
  untwistWords_lt hp rom _ _

end Sys2Proof.Laws
end

section
/-! PROOF. What every effect keeps: the invariant but for `STATUS.ERR` and `STATUS.STICKY`, one lemma per operation on
the state (10_state.md R20 to R35). -/

namespace Sys2Proof.Machine

open Sys2Proof

/-- The invariant but for `STATUS.ERR` and `STATUS.STICKY`, which between an effect and the completion update need not
agree (`CLRERR`, 40_context_and_data.md R110). -/
structure State.DataOk (s : State) : Prop where
  legal : s.params.legal = true
  shapes : s.shapesOk
  widths : s.widthsOk
  memories : s.memoriesOk
  ring : s.ringOk
  crt : s.crtOk

theorem State.Inv.dataOk {s : State} (h : s.Inv) : s.DataOk :=
  ⟨h.legal, h.shapes, h.widths, h.memories, h.ring, h.crt⟩

theorem State.DataOk.inv {s : State} (h : s.DataOk) (hs : s.statusOk) : s.Inv :=
  ⟨h.legal, h.shapes, h.widths, h.memories, h.ring, h.crt, hs⟩

theorem Memory.fits_empty (size w : Nat) : (⟨[]⟩ : Memory).fits size w := ⟨Memory.wf_empty, nofun⟩

/-- Without a valid table only the context has a promise to keep. -/
theorem State.ringOk_of_no_table {s : State} (ctx : s.status.ctxValid = true → 2 ≤ s.modulus)
    (noCtx : s.status.ctxValid = false → s.modulus = 0 ∧ s.logn = 0) (noTbl : s.status.tblValid = false) :
    s.ringOk := by
  have absurdTbl : ∀ {p : Prop}, s.status.tblValid = true → p := fun tbl => absurd (tbl.symm.trans noTbl) nofun
  exact ⟨ctx, fun h => ⟨(noCtx h).1, (noCtx h).2, noTbl⟩, absurdTbl, absurdTbl, absurdTbl, absurdTbl, absurdTbl,
    absurdTbl⟩

/-- Without valid coefficients nothing is promised of them. -/
theorem State.crtOk_of_no_crt {s : State} (noCrt : s.status.crtValid = false) : s.crtOk := by
  have absurdCrt : ∀ {p : Prop}, s.status.crtValid = true → p := fun crt => absurd (crt.symm.trans noCrt) nofun
  exact ⟨absurdCrt, absurdCrt, absurdCrt, absurdCrt, absurdCrt, absurdCrt, absurdCrt⟩

/-- The coefficients `CRTBUILD k` writes, read back. -/
theorem State.getCrte_setCrt_firstLimbs (s : State) {k i : Nat} (bigM : Nat) (hi : i < k) :
    (s.setCrt k bigM ((s.firstLimbs k).map (crtE bigM))).getCrte i = crtE bigM (s.getLimb i) := by
  rw [getCrte_setCrt, if_pos (by simpa [firstLimbs] using hi)]
  simp [firstLimbs, hi]

/-! What the invariant bounds -/

namespace State.DataOk

variable {s : State}

/-- A word fits a register, as `KMAX >= 1` (00_scope.md R5). -/
theorem lt_wm (h : s.DataOk) {v : Nat} (hv : v < 2 ^ s.params.w) : v < 2 ^ s.params.wm := by
  have hk : 1 ≤ s.params.kmax := by
    have := h.legal
    simp only [Params.legal, decide_eq_true_eq] at this
    omega
  exact hv.trans_le (Nat.pow_le_pow_right (by omega) (Nat.le_mul_of_pos_left _ hk))

theorem modulus_pos (h : s.DataOk) (ctx : s.status.ctxValid = true) : 0 < s.modulus := by
  have := h.ring.ctx ctx
  omega

/-- A valid table needs a context (20_memory.md R71). -/
theorem ctxValid (h : s.DataOk) (tbl : s.status.tblValid = true) : s.status.ctxValid = true := by
  by_contra hctx
  obtain ⟨-, -, htbl⟩ := h.ring.noCtx (Bool.eq_false_iff.2 hctx)
  rw [tbl] at htbl
  cases htbl

/-- A residue fits a word. -/
theorem residue_lt (h : s.DataOk) {v : Nat} (hv : v < s.modulus) : v < 2 ^ s.params.w := hv.trans h.widths.modulus

theorem residue_lt_wm (h : s.DataOk) {v : Nat} (hv : v < s.modulus) : v < 2 ^ s.params.wm := h.lt_wm (h.residue_lt hv)

theorem n_le_nmax (h : s.DataOk) : s.n ≤ s.params.nmax := Nat.pow_le_pow_right (by omega) h.widths.logn

/-- Valid CRT state has a product that is not 0. -/
theorem bigM_pos (h : s.DataOk) (crt : s.status.crtValid = true) : 0 < s.bigM := by
  rw [h.crt.bigM crt, Laws.prod_map_range]
  exact Laws.prod_range_pos (h.crt.limbs crt)

theorem limbs_pos (h : s.DataOk) (crt : s.status.crtValid = true) : ∀ m ∈ s.limbs, 0 < m := by
  refine List.forall_mem_map.2 fun i hi => ?_
  have := h.crt.limbs crt i (List.mem_range.1 hi)
  omega

theorem limbs_lt (h : s.DataOk) : ∀ m ∈ s.limbs, m < 2 ^ s.params.w :=
  List.forall_mem_map.2 fun i _ => h.widths.limb i

theorem buffer_fits (h : s.DataOk) (b : Nat) : (s.bufs.getD b ⟨[]⟩).fits s.params.nmax s.params.w := by
  by_cases hb : b < s.bufs.length
  · rw [List.getD_eq_getElem _ _ hb]
    exact h.memories.bufs _ (List.getElem_mem hb)
  · rw [List.getD_eq_default _ _ (not_lt.1 hb)]
    exact Memory.fits_empty _ _

theorem bufWords_lt (h : s.DataOk) (b : BufNum) : ∀ v ∈ s.bufWords b, v < 2 ^ s.params.w :=
  List.forall_mem_map.2 fun i _ => State.bufWord_lt h.memories b i

/-! One lemma per operation -/

theorem setX (h : s.DataOk) (r : RegNum) {v : Nat} (hv : v < 2 ^ s.params.wm) : (s.setX r v).DataOk where
  legal := h.legal
  shapes := { h.shapes with }
  widths := { h.widths with
    x := fun q => by
      rw [getX_setX]
      split
      · exact hv
      · exact h.widths.x q }
  memories := { h.memories with }
  ring := { h.ring with }
  crt := { h.crt with }

theorem setT (h : s.DataOk) {i v : Nat} (hi : i < s.params.kmax) (hv : v < 2 ^ s.params.w) : (s.setT i v).DataOk where
  legal := h.legal
  shapes := { h.shapes with t := by rw [setT_t, List.length_set]; exact h.shapes.t }
  widths := { h.widths with
    t := fun j => by
      rw [getT_setT s i v j (h.shapes.t.symm ▸ hi)]
      split
      · exact hv
      · exact h.widths.t j }
  memories := { h.memories with }
  ring := { h.ring with }
  crt := { h.crt with }

theorem setTuple (h : s.DataOk) {vs : List Nat} (hn : vs.length ≤ s.params.kmax)
    (hv : ∀ v ∈ vs, v < 2 ^ s.params.w) : (s.setTuple vs).DataOk where
  legal := h.legal
  shapes := { h.shapes with t := (length_overwrite vs s.t (h.shapes.t.symm ▸ hn)).trans h.shapes.t }
  widths := { h.widths with
    t := fun j => by
      rw [getT_setTuple]
      split
      · exact getD_lt hv (Nat.two_pow_pos _) j
      · exact h.widths.t j }
  memories := { h.memories with }
  ring := { h.ring with }
  crt := { h.crt with }

/-- A buffer replaced by a canonical memory of its size. -/
theorem setBuf (h : s.DataOk) (b : Nat) {m : Memory} (hm : m.fits s.params.nmax s.params.w) :
    State.DataOk { s with bufs := s.bufs.set b m } where
  legal := h.legal
  shapes := { h.shapes with bufs := List.length_set.trans h.shapes.bufs }
  widths := { h.widths with }
  memories := { h.memories with
    bufs := fun m' hm' => by
      rcases List.mem_or_eq_of_mem_set hm' with hold | rfl
      · exact h.memories.bufs m' hold
      · exact hm }
  ring := { h.ring with }
  crt := { h.crt with }

theorem setBufWord (h : s.DataOk) (b : BufNum) {i v : Nat} (hi : i < s.n) (hv : v < 2 ^ s.params.w) :
    (s.setBufWord b i v).DataOk :=
  h.setBuf b.toNat (Memory.fits_write (h.buffer_fits b.toNat) (hi.trans_le h.n_le_nmax) hv)

theorem setBufWords (h : s.DataOk) (b : BufNum) {ws : List Nat} (hn : ws.length = s.n)
    (hw : ∀ v ∈ ws, v < 2 ^ s.params.w) : (s.setBufWords b ws).DataOk :=
  h.setBuf b.toNat (Memory.fits_writePrefix (h.buffer_fits b.toNat) (hn.trans_le h.n_le_nmax) hw)

/-- The table stays valid only where the context is the one in force, so what it says of `MOD` and `LOGN` stays true
(20_memory.md R71). -/
theorem setContext (h : s.DataOk) {m l : Nat} (hl : l ≤ s.params.lognmax) (hm : 2 ≤ m) (hw : m < 2 ^ s.params.w) :
    (s.setContext m l).DataOk where
  legal := h.legal
  shapes := { h.shapes with }
  widths := { h.widths with modulus := hw, logn := hl }
  memories := { h.memories with }
  ring := by
    by_cases htbl : (s.setContext m l).status.tblValid = true
    · obtain ⟨tbl, -, rfl, rfl⟩ :
          s.status.tblValid = true ∧ s.status.ctxValid = true ∧ l = s.logn ∧ m = s.modulus := by simpa using htbl
      exact
        { ctx := fun _ => hm
          noCtx := nofun
          prime := fun _ => h.ring.prime tbl
          divides := fun _ => h.ring.divides tbl
          root := fun _ => h.ring.root tbl
          rom := fun _ => h.ring.rom tbl
          psiInv := fun _ => h.ring.psiInv tbl
          nInv := fun _ => h.ring.nInv tbl }
    · exact ringOk_of_no_table (fun _ => hm) nofun (Bool.eq_false_iff.2 htbl)
  crt := { h.crt with }

/-- The table `TBUILD` writes is the one `TBL_VALID` promises (44_twiddle_rom.md R145, R147). -/
theorem setTable (h : s.DataOk) {psi : Nat} (ctx : s.status.ctxValid = true) (prime : s.modulus.Prime)
    (divides : 2 * s.n ∣ s.modulus - 1) (root : isRoot psi s.n s.modulus = true) :
    (s.setTable psi (modinv psi s.modulus) (modinv (s.n % s.modulus) s.modulus)
      (powersOf psi (2 * s.n) s.modulus)).DataOk := by
  obtain ⟨hpsi1, hpsi, hpow⟩ := (Laws.isRoot_iff _ _ _).1 root
  have hpos : 0 < s.modulus := prime.pos
  have hn : s.n < s.modulus := Laws.degree_lt_of_dvd prime divides
  have hn1 : 1 ≤ s.n := Nat.two_pow_pos s.logn
  have hwords : ∀ v ∈ powersOf psi (2 * s.n) s.modulus, v < 2 ^ s.params.w :=
    List.forall_mem_map.2 fun j _ => h.residue_lt (Laws.modpow_lt psi j hpos)
  exact
    { legal := h.legal
      shapes := { h.shapes with }
      widths := { h.widths with
        psi := h.residue_lt hpsi
        psiInv := h.residue_lt (Laws.modinv_lt _ _ hpos)
        nInv := h.residue_lt (Laws.modinv_lt _ _ hpos) }
      memories := { h.memories with
        rom := Memory.fits_writePrefix h.memories.rom
          ((powersOf_length _ _ _).trans_le (Nat.mul_le_mul_left 2 h.n_le_nmax)) hwords }
      ring :=
        { ctx := fun _ => h.ring.ctx ctx
          noCtx := fun noCtx => absurd (ctx.symm.trans noCtx) nofun
          prime := fun _ => prime
          divides := fun _ => divides
          root := fun _ => ⟨hpsi1, hpsi, hpow⟩
          rom := fun _ j (hj : j < 2 * s.n) => by
            rw [romWord_setTable, if_pos (by rwa [powersOf_length])]
            simp [powersOf, hj, Laws.modpow_eq]
          psiInv := fun _ => ⟨Laws.modinv_lt _ _ hpos, Laws.mul_modinv_of_prime prime hpsi1 hpsi⟩
          nInv := fun _ => by
            refine ⟨Laws.modinv_lt _ _ hpos, ?_⟩
            rw [setTable_n, Nat.mod_eq_of_lt hn]
            exact Laws.mul_modinv_of_prime prime hn1 hn }
      crt := { h.crt with } }

/-- A new limb leaves no promise about the coefficients, as `CRT_VALID` is cleared (47_crt_reconstructor.md R176). -/
theorem setLimb (h : s.DataOk) {i v : Nat} (hi : i < s.params.kmax) (hv : v < 2 ^ s.params.w) :
    (s.setLimb i v).DataOk where
  legal := h.legal
  shapes := { h.shapes with limb := List.length_set.trans h.shapes.limb }
  widths := { h.widths with
    limb := fun j => by
      rw [getLimb_setLimb s i v j (h.shapes.limb.symm ▸ hi)]
      split
      · exact hv
      · exact h.widths.limb j }
  memories := { h.memories with }
  ring := { h.ring with }
  crt := crtOk_of_no_crt rfl

/-- The coefficients `CRTBUILD` writes are the ones `CRT_VALID` promises (47_crt_reconstructor.md R177, R178). -/
theorem setCrt (h : s.DataOk) {k : Nat} (hk : 1 ≤ k) (hkmax : k ≤ s.params.kmax)
    (limbs : ∀ i < k, 2 ≤ s.getLimb i) (coprime : (s.firstLimbs k).Pairwise Nat.Coprime) :
    (s.setCrt k (product (s.firstLimbs k)) ((s.firstLimbs k).map (crtE (product (s.firstLimbs k))))).DataOk := by
  have hco : ∀ i < k, ∀ j < k, i ≠ j → (s.getLimb i).Coprime (s.getLimb j) := fun _ hi _ hj =>
    Laws.coprime_of_pairwise_map_range coprime hi hj
  have hM : product (s.firstLimbs k) = ∏ i ∈ Finset.range k, s.getLimb i := Laws.product_eq _
  have hMlt : ∏ i ∈ Finset.range k, s.getLimb i < 2 ^ s.params.wm := Laws.prod_range_lt hk hkmax h.widths.limb
  have hread := fun i hi => getCrte_setCrt_firstLimbs s (k := k) (i := i) (product (s.firstLimbs k)) hi
  rw [hM] at hread ⊢
  exact
    { legal := h.legal
      shapes := { h.shapes with
        crte := (length_overwrite _ s.crte (by simpa [firstLimbs, h.shapes.crte] using hkmax)).trans h.shapes.crte }
      widths := { h.widths with
        k := hkmax
        bigM := hMlt
        crte := fun j => by
          by_cases hj : j < k
          · rw [hread j hj]
            exact (Laws.crtE_lt limbs _).trans hMlt
          · rw [getCrte_setCrt, if_neg (by simpa [firstLimbs] using hj)]
            exact h.widths.crte j }
      memories := { h.memories with }
      ring := { h.ring with }
      crt :=
        { count := fun _ => hk
          limbs := fun _ => limbs
          coprime := fun _ => hco
          bigM := fun _ => rfl
          below := fun _ i hi => by
            rw [hread i hi]
            exact Laws.crtE_lt limbs _
          own := fun _ i hi => by
            rw [hread i hi]
            exact Laws.crtE_mod_own limbs hco hi
          other := fun _ i hi j hj hne => by
            rw [hread i hi]
            exact Laws.crtE_mod_other limbs hi hj hne } }

theorem clearSticky (h : s.DataOk) : s.clearSticky.DataOk :=
  ⟨h.legal, { h.shapes with }, { h.widths with }, { h.memories with }, { h.ring with }, { h.crt with }⟩

theorem issue (h : s.DataOk) (d : Nat) (rest : List HostEvent) : (s.issue d rest).DataOk :=
  ⟨h.legal, { h.shapes with }, { h.widths with wdata := Nat.mod_lt _ (Nat.two_pow_pos _) }, { h.memories with },
    { h.ring with }, { h.crt with }⟩

/-- One more response, and any other `STATUS.ERR` and `STATUS.STICKY`. -/
theorem respond (h : s.DataOk) {r : Response} (hr : r.rdata < 2 ^ s.params.wm) (err : ErrCode) (sticky : Bool) :
    State.DataOk { s with
      status := { s.status with err := err, sticky := sticky }, responses := s.responses ++ [r] } where
  legal := h.legal
  shapes := { h.shapes with }
  widths := { h.widths with
    responses := fun q hq => by
      rcases List.mem_append.1 hq with hold | hnew
      · exact h.widths.responses q hold
      · rwa [List.mem_singleton.1 hnew] }
  memories := { h.memories with }
  ring := { h.ring with }
  crt := { h.crt with }

theorem completed (h : s.DataOk) {v : Nat} (hv : v < 2 ^ s.params.wm) : (s.completed v).DataOk :=
  h.respond (r := ⟨0, v⟩) hv 0 s.status.sticky

theorem raised (h : s.DataOk) (e : Err) : (s.raised e).DataOk :=
  h.respond (r := ⟨e.code, 0⟩) (Nat.two_pow_pos _) e.code true

end State.DataOk

end Sys2Proof.Machine
end

section
/-! PROOF. Reset states meet the invariant (10_state.md R39). -/

namespace Sys2Proof.Machine

open Sys2Proof

section Reset

variable (P : Params)

@[simp] theorem State.resetOf_getX (r : RegNum) : (State.resetOf P).getX r = 0 := by
  simp [State.getX, State.resetOf]

theorem getD_replicate_zero (n i : Nat) : (List.replicate n 0).getD i 0 = 0 := by
  rw [List.getD_eq_getElem?_getD, List.getElem?_getD_replicate_default_eq]

@[simp] theorem State.resetOf_getT (i : Nat) : (State.resetOf P).getT i = 0 := getD_replicate_zero P.kmax i
@[simp] theorem State.resetOf_getLimb (i : Nat) : (State.resetOf P).getLimb i = 0 := getD_replicate_zero P.kmax i
@[simp] theorem State.resetOf_getCrte (i : Nat) : (State.resetOf P).getCrte i = 0 := getD_replicate_zero P.kmax i

theorem State.resetOf_isReset : (State.resetOf P).isReset where
  x := State.resetOf_getX P
  tuple := State.resetOf_getT P
  status := by show Status.reset.word = 0; decide
  modulus := rfl
  logn := rfl
  psi := rfl
  psiInv := rfl
  nInv := rfl
  k := rfl
  bigM := rfl
  limb := State.resetOf_getLimb P
  crte := State.resetOf_getCrte P

theorem State.resetOf_widthsOk : (State.resetOf P).widthsOk where
  x r := (State.resetOf_getX P r).trans_lt (Nat.two_pow_pos _)
  t i := (State.resetOf_getT P i).trans_lt (Nat.two_pow_pos _)
  modulus := Nat.two_pow_pos _
  logn := Nat.zero_le _
  psi := Nat.two_pow_pos _
  psiInv := Nat.two_pow_pos _
  nInv := Nat.two_pow_pos _
  k := Nat.zero_le _
  bigM := Nat.two_pow_pos _
  limb i := (State.resetOf_getLimb P i).trans_lt (Nat.two_pow_pos _)
  crte i := (State.resetOf_getCrte P i).trans_lt (Nat.two_pow_pos _)
  wdata := Nat.two_pow_pos _
  responses := nofun

theorem State.resetOf_inv {P : Params} (hP : P.legal = true) : (State.resetOf P).Inv where
  legal := hP
  shapes := ⟨List.length_replicate, List.length_replicate, List.length_replicate, List.length_replicate⟩
  widths := State.resetOf_widthsOk P
  memories :=
    { bufs := fun m hm => by rw [List.eq_of_mem_replicate hm]; exact Memory.fits_empty _ _
      rom := Memory.fits_empty _ _ }
  ring := State.ringOk_of_no_table nofun (fun _ => ⟨rfl, rfl⟩) rfl
  crt := State.crtOk_of_no_crt rfl
  status := ⟨List.mem_cons_self, fun h => absurd rfl h⟩

end Reset

/-- A reset event keeps the host's list and the responses, and its buffers stay canonical memories
(70_reset_and_hazards.md R230). -/
theorem State.DataOk.hostReset {s : State} (h : s.DataOk) (rest : List HostEvent) : (s.hostReset rest).Inv where
  legal := h.legal
  shapes := { (State.resetOf_inv h.legal).shapes with bufs := (State.resetBufs_fits h.memories).1 }
  widths := { State.resetOf_widthsOk s.params with responses := h.widths.responses }
  memories := ⟨(State.resetBufs_fits h.memories).2, Memory.fits_empty _ _⟩
  ring := State.ringOk_of_no_table nofun (fun _ => ⟨rfl, rfl⟩) rfl
  crt := State.crtOk_of_no_crt rfl
  status := { (State.resetOf_inv h.legal).status with }

/-- Settles O9: the reset state's registers read 0, and so every bound and promise of the invariant holds. -/
theorem resetMeetsInvariant : Obligations.ResetMeetsInvariant :=
  ⟨fun P hP => ⟨State.resetOf_isReset P, rfl, State.resetOf_inv hP⟩, rfl, rfl⟩

end Sys2Proof.Machine
end

section
/-! PROOF. Every step keeps the invariant: every effect keeps its promises on the data, and the two ends of a command
keep what it says of `STATUS.ERR` and `STATUS.STICKY`. -/

namespace Sys2Proof.Machine

open Sys2Proof

/-! The values of the CRT commands -/

/-- `RESCALE` reduces by its target, which is not 0 as some limb is kept (48_rns_composer.md R188). -/
theorem rescaled_lt {v bigM target : Nat} {ms : List Nat} (kept : ∃ m ∈ ms, keptLimb target m = true) :
    rescaled v bigM target < target := by
  obtain ⟨m, -, hm⟩ := kept
  have hne : target ≠ 0 := by
    rintro rfl
    simp [keptLimb] at hm
  exact Nat.mod_lt _ (Nat.pos_of_ne_zero hne)

theorem decompose_lt {v bound : Nat} {ms : List Nat} (hpos : ∀ m ∈ ms, 0 < m) (hlt : ∀ m ∈ ms, m < bound) :
    ∀ r ∈ decompose v ms, r < bound :=
  List.forall_mem_map.2 fun m hm => (Nat.mod_lt v (hpos m hm)).trans (hlt m hm)

theorem rescaledTuple_lt {v target bound : Nat} {ms : List Nat} (hpos : ∀ m ∈ ms, 0 < m)
    (hlt : ∀ m ∈ ms, m < bound) : ∀ r ∈ rescaledTuple v target ms, r < bound := by
  refine List.forall_mem_map.2 fun m hm => ?_
  split
  · exact (Nat.mod_lt v (hpos m hm)).trans (hlt m hm)
  · exact (hpos m hm).trans (hlt m hm)

namespace State.DataOk

variable {s : State}

/-- A residue written to a register. -/
theorem setResidue (h : s.DataOk) (ctx : s.status.ctxValid = true) (r : RegNum) {v : Nat}
    (hv : 0 < s.modulus → v < s.modulus) : (s.setX r v).DataOk :=
  h.setX r (h.residue_lt_wm (hv (h.modulus_pos ctx)))

/-- Residues written over the `n` words of a buffer. -/
theorem setResidues (h : s.DataOk) (ctx : s.status.ctxValid = true) (b : BufNum) {ws : List Nat}
    (hn : ws.length = s.n) (hw : 0 < s.modulus → ∀ v ∈ ws, v < s.modulus) : (s.setBufWords b ws).DataOk :=
  h.setBufWords b hn fun v hv => h.residue_lt (hw (h.modulus_pos ctx) v hv)

end State.DataOk

/-! Every command -/

section Keeps

variable {s u : State} {i : Instr} {v : Nat}

theorem State.Effect.dataOk (h : s.Effect i u v) (hs : s.DataOk) : u.DataOk := by
  cases h with
  | nop | getr | getc => exact hs
  | setr ra => exact hs.setX ra hs.widths.wdata
  | mov ra rb => exact hs.setX ra (hs.widths.x rb)
  | setctx degree two_le width => exact hs.setContext degree two_le width
  | ldc => exact hs.setX _ (hs.lt_wm (State.bufWord_lt hs.memories _ _))
  | stc ctx bound canon =>
    have hi := of_decide_eq_true (Bool.and_eq_true_iff.1 bound).2
    exact hs.setBufWord _ hi (hs.residue_lt (of_decide_eq_true canon))
  | sett bound width => exact hs.setT bound width
  | gett => exact hs.setX _ (hs.lt_wm (hs.widths.t _))
  | clrerr => exact hs.clearSticky
  | add ctx => exact hs.setResidue ctx _ (Laws.modadd_lt _ _)
  | sub ctx => exact hs.setResidue ctx _ (Laws.modsub_lt _ _)
  | neg ctx => exact hs.setResidue ctx _ (Laws.modneg_lt _)
  | mul ctx => exact hs.setResidue ctx _ (Laws.modmul_lt _ _)
  | pow ctx => exact hs.setResidue ctx _ (Laws.modpow_lt _ _)
  | inv ctx => exact hs.setResidue ctx _ (Laws.modinv_lt _ _)
  | bfly ne ctx =>
    exact (hs.setResidue ctx _ (Laws.modadd_lt _ _)).setResidue ctx _ (Laws.modsub_lt _ _)
  | twd => exact hs.setX _ (hs.lt_wm (State.romWord_lt hs.memories _))
  | brev => exact hs.setX _ (s.fit_lt _)
  | pwmul ctx =>
    exact hs.setResidues ctx _ (by simp) fun hp => List.forall_mem_map.2 fun _ _ => Laws.modmul_lt _ _ hp
  | brperm =>
    exact hs.setBufWords _ (Laws.permuteWords_length _ _)
      (Laws.permuteWords_lt (Nat.two_pow_pos _) (hs.bufWords_lt _))
  | nttfwd tbl =>
    exact hs.setResidues (hs.ctxValid tbl) _ (Laws.forwardWords_length _ _ _ _)
      fun hp => Laws.forwardWords_lt hp _ _ _
  | nttinv tbl =>
    exact hs.setResidues (hs.ctxValid tbl) _ (Laws.inverseWords_length _ _ _ _ _)
      fun hp => Laws.inverseWords_lt hp _ _ _ _
  | tbuild ctx prime divides root => exact hs.setTable ctx prime divides (Laws.psiSelect_some root)
  | setlimb bound two_le width => exact hs.setLimb bound width
  | crtbuild pos bound limbs coprime => exact hs.setCrt pos bound limbs coprime
  | compose crt => exact hs.setX _ ((Nat.mod_lt _ (hs.bigM_pos crt)).trans hs.widths.bigM)
  | decomp crt =>
    exact hs.setTuple (by simpa using hs.widths.k) (decompose_lt (hs.limbs_pos crt) hs.limbs_lt)
  | rescale crt canon kept target =>
    exact (hs.setX _ ((rescaled_lt kept).trans (hs.widths.x _))).setTuple (by simpa using hs.widths.k)
      (rescaledTuple_lt (hs.limbs_pos crt) hs.limbs_lt)

/-- The read port carries `WM` bits (00_scope.md R8). -/
theorem State.Effect.rdata_lt (h : s.Effect i u v) (hs : s.DataOk) : v < 2 ^ s.params.wm := by
  cases h with
  | getr ra => exact hs.widths.x ra
  | getc => exact s.fit_lt _
  | _ => exact Nat.two_pow_pos _

end Keeps

/-- The codes of the errors a command reports, without the unreachable `NoPrimitiveRoot` (60_exceptions.md R203). -/
theorem code_mem_of_mem_errors {i : Instr} {e : Err} (he : e ∈ i.errors) (hne : e ≠ .noPrimitiveRoot) :
    e.code ∈ ([0, 1, 4, 5, 7, 8, 9, 10] : List ErrCode) := by
  cases e with
  | noPrimitiveRoot => exact absurd rfl hne
  | lengthMismatch | incompatibleRings => cases i <;> simp [Instr.errors] at he
  | _ => decide

theorem State.DataOk.inv_completed {s : State} (h : s.DataOk) {v : Nat} (hv : v < 2 ^ s.params.wm) :
    (s.completed v).Inv :=
  (h.completed hv).inv ⟨List.mem_cons_self, fun herr => absurd rfl herr⟩

theorem State.DataOk.inv_raised {s : State} (h : s.DataOk) {e : Err}
    (he : e.code ∈ ([0, 1, 4, 5, 7, 8, 9, 10] : List ErrCode)) : (s.raised e).Inv :=
  (h.raised e).inv ⟨he, fun _ => rfl⟩

theorem exec_inv {i : Instr} {s t : State} (hs : s.DataOk) (h : exec i s = .next t) :
    t.params = s.params ∧ t.Inv := by
  rcases exec_next_cases h with ⟨e, he, hne, rfl⟩ | ⟨u, v, hu, rfl⟩
  · exact ⟨rfl, hs.inv_raised (code_mem_of_mem_errors he hne)⟩
  · exact ⟨hu.params_eq, (hu.dataOk hs).inv_completed (hu.params_eq ▸ hu.rdata_lt hs)⟩

/-! Every step -/

/-- The block idles, takes a reset, runs a command or answers an illegal word: each keeps the invariant. -/
theorem step_inv {s t : State} (hs : s.Inv) (h : step s = .next t) : t.params = s.params ∧ t.Inv := by
  cases hp : s.pending with
  | nil =>
    cases (step_of_idle hs.legal hp).symm.trans h
    exact ⟨rfl, hs⟩
  | cons event rest =>
    cases event with
    | reset =>
      cases (step_of_reset hs.legal hp).symm.trans h
      exact ⟨rfl, hs.dataOk.hostReset rest⟩
    | command cmd d =>
      have hissued := hs.dataOk.issue d rest
      cases hd : decode cmd with
      | ok i =>
        have hexec : exec i (s.issue d rest) = .next t := (step_of_decode_ok hs.legal hp hd).symm.trans h
        have ⟨hparams, ht⟩ := exec_inv hissued hexec
        exact ⟨hparams, ht⟩
      | error e =>
        cases (step_of_decode_error hs.legal hp hd).symm.trans h
        exact ⟨rfl, hissued.inv_raised (by decide)⟩

/-- Settles O11: the counts and widths of the invariant, which `step_inv` keeps whole. -/
theorem stepKeepsShapesAndWidths : Obligations.StepKeepsShapesAndWidths := by
  intro s t hs h
  obtain ⟨hparams, ht⟩ := step_inv hs h
  exact ⟨hparams, ht.shapes, ht.widths⟩

/-- Settles O12: the memories of the invariant, with their words' bounds from `State.Effect.dataOk`. -/
theorem stepKeepsCanonicalMemories : Obligations.StepKeepsCanonicalMemories :=
  fun _ _ hs h => (step_inv hs h).2.memories

/-- Settles O13: the ring context and table of the invariant; `SETCTX` and `TBUILD` are `State.DataOk.setContext` and
`State.DataOk.setTable`. -/
theorem stepKeepsContextAndTable : Obligations.StepKeepsContextAndTable :=
  fun _ _ hs h => (step_inv hs h).2.ring

/-- Settles O14: the CRT state of the invariant; `SETLIMB` and `CRTBUILD` are `State.DataOk.setLimb` and
`State.DataOk.setCrt`. -/
theorem stepKeepsCrtCoefficients : Obligations.StepKeepsCrtCoefficients :=
  fun _ _ hs h => (step_inv hs h).2.crt

/-! Every run -/

/-- A run of `k + 1` steps that goes through took a step that goes through. -/
theorem run_succ_next {M : Host.Core} {k : Nat} {s t : M.State} (h : M.run (k + 1) s = .next t) :
    ∃ u, M.step s = .next u ∧ M.run k u = .next t := by
  rw [Host.Core.run] at h
  split at h
  · exact ⟨_, ‹_›, h⟩
  · cases h
  · cases h

/-- Settles O16: induction on the number of steps, each by `step_inv`. -/
theorem runsKeepInvariant : Obligations.RunsKeepInvariant := by
  intro k
  induction k with
  | zero =>
    intro s t hs h
    cases h
    exact hs
  | succ k ih =>
    intro s t hs h
    obtain ⟨u, hstep, hrun⟩ := run_succ_next h
    exact ih u t (step_inv hs hstep).2 hrun

end Sys2Proof.Machine
end

section
/-! PROOF. The maintenance rules of the two tables' valid flags (20_memory.md R71). -/

namespace Sys2Proof.Machine

open Sys2Proof

/-- Code 0 is success and no error's code (60_exceptions.md R201). -/
theorem Err.code_ne_zero (e : Err) : e.code ≠ 0 := by cases e <;> decide

/-! `SETCTX` and `TBL_VALID` -/

section Context

variable {s : State} {m l : Nat}

theorem State.setContext_tblValid_of_unchanged (h : l = s.logn ∧ m = s.modulus ∧ s.status.ctxValid = true) :
    (s.setContext m l).status.tblValid = s.status.tblValid := by
  obtain ⟨hl, hm, ctx⟩ := h
  simp [hl, hm, ctx]

theorem State.setContext_tblValid_of_changed
    (h : ¬ (l = s.logn ∧ m = s.modulus) ∨ s.status.ctxValid = false) :
    (s.setContext m l).status.tblValid = false := by
  rcases h with changed | noContext
  · have differs : (l == s.logn && m == s.modulus) = false := by simpa using changed
    simp [differs]
  · simp [noContext]

end Context

/-- Settles O22: an error keeps the flags (60_exceptions.md R210), and so does the completion update; of the effects only
the four of R71 touch one. -/
theorem validFlagsFollowMaintenanceRules : Obligations.ValidFlagsFollowMaintenanceRules := by
  intro i s t h
  rcases exec_next_cases h with ⟨e, -, -, rfl⟩ | ⟨u, v, hu, rfl⟩
  · exact ⟨fun _ => ⟨rfl, rfl, rfl⟩, fun success => absurd success e.code_ne_zero⟩
  · refine ⟨fun failure => absurd rfl failure, fun _ => ?_⟩
    cases hu with
    | setctx =>
      exact ⟨rfl, rfl, State.setContext_tblValid_of_unchanged, State.setContext_tblValid_of_changed⟩
    -- `TBUILD`, `SETLIMB` and `CRTBUILD` write their one flag as a constant; every other effect writes none.
    | _ => exact ⟨rfl, rfl, rfl⟩

end Sys2Proof.Machine
end

section
/-! PROOF. The decoder and the opcode map (30_encoding.md R81, R82, R84, R86): what a word's fields say of it, the
layout behind every row of the map, and the verdict on every word that follows from them. -/

namespace Sys2Proof.Laws

open Sys2Proof

/-! Words by their fields (R81) -/

theorem encodeImm_eq_iff {op : BitVec 8} {ra rb : BitVec 4} {imm : Imm16} {w : CmdWord} :
    encodeImm op ra rb imm = w ↔ opField w = op ∧ raField w = ra ∧ rbField w = rb ∧ immField w = imm := by
  rw [eq_comm, ← encodeImm_fields w, encodeImm_inj, encodeImm_fields]

/-- The immediate overlays `rc` and `z12`. -/
theorem immField_eq_append (w : CmdWord) : immField w = rcField w ++ z12Field w :=
  (BitVec.extractLsb'_append_extractLsb'_eq_extractLsb' (start₁ := 0) (len₁ := 12) (len₂ := 4) (x := w) rfl).symm

/-- A word is what a format with `rc` spells of its fields exactly when `z12` is zero. -/
theorem encodeReg_fields_iff {w : CmdWord} :
    encodeReg (opField w) (raField w) (rbField w) (rcField w) = w ↔ z12Field w = 0 := by
  have overlay : immField w = rcField w ++ (0 : BitVec 12) ↔ z12Field w = 0 := by
    rw [immField_eq_append, BitVec.append_right_inj]
  exact encodeImm_eq_iff.trans (by simp only [overlay, true_and])

theorem immField_and_z12_iff {w : CmdWord} : immField w &&& 0x0FFF = 0 ↔ z12Field w = 0 := by
  have masked : rcField w ++ z12Field w &&& 0#4 ++ BitVec.allOnes 12 = 0#4 ++ z12Field w := by
    rw [BitVec.and_append, BitVec.and_allOnes, BitVec.and_zero]
  rw [immField_eq_append]
  exact (Eq.congr_left masked).trans (BitVec.append_right_inj (0#4) (t₂ := 0#12))

/-- A word under a mask that keeps the opcode, field by field. -/
theorem and_mask_eq_iff {w : CmdWord} {a b : BitVec 4} {m : Imm16} {op : BitVec 8} :
    w &&& encodeImm 0xFF a b m = encodeImm op 0 0 0 ↔
      opField w = op ∧ raField w &&& a = 0 ∧ rbField w &&& b = 0 ∧ immField w &&& m = 0 := by
  have whole : opField w &&& 0xFF = opField w := BitVec.and_allOnes
  conv_lhs => rw [← encodeImm_fields w, encodeImm_and, encodeImm_inj, whole]

/-! Layouts: the formats of R81 with the command each makes of the fields it uses -/

theorem accept_eq_ok {b : Bool} {i j : Instr} : accept b j = .ok i ↔ b = true ∧ j = i := by
  cases b <;> simp [accept]

/-- A format and the command it names. `BFLY` is `REG3` with a condition of its own (R82). -/
inductive Layout where
  | reg0 (i : Instr)
  | reg1 (f : BitVec 4 → Instr)
  | reg2 (f : BitVec 4 → BitVec 4 → Instr)
  | reg3 (f : BitVec 4 → BitVec 4 → BitVec 4 → Instr)
  | bfly
  | imm0 (f : Imm16 → Instr)
  | imm1 (f : BitVec 4 → Imm16 → Instr)
  | imm2 (f : BitVec 4 → BitVec 4 → Imm16 → Instr)

namespace Layout

/-- The model's decoder of the format. -/
def verdict (w : CmdWord) : Layout → Except DecodeError Instr
  | reg0 i => decodeReg0 w i
  | reg1 f => decodeReg1 w f
  | reg2 f => decodeReg2 w f
  | reg3 f => decodeReg3 w f
  | bfly => decodeBfly w
  | imm0 f => decodeImm0 w f
  | imm1 f => decodeImm1 w f
  | imm2 f => decodeImm2 w f

/-- The command that the used fields of `w` name. -/
def command (w : CmdWord) : Layout → Instr
  | reg0 i => i
  | reg1 f => f (raField w)
  | reg2 f => f (raField w) (rbField w)
  | reg3 f => f (raField w) (rbField w) (rcField w)
  | bfly => .bfly (raField w) (rbField w) (rcField w)
  | imm0 f => f (immField w)
  | imm1 f => f (raField w) (immField w)
  | imm2 f => f (raField w) (rbField w) (immField w)

/-- The word of opcode `op` with the used fields of `w`, every other bit zero. -/
def spelling (op : BitVec 8) (w : CmdWord) : Layout → CmdWord
  | reg0 _ => encodeImm op 0 0 0
  | reg1 _ => encodeImm op (raField w) 0 0
  | reg2 _ => encodeImm op (raField w) (rbField w) 0
  | reg3 _ | bfly => encodeReg op (raField w) (rbField w) (rcField w)
  | imm0 _ => encodeImm op 0 0 (immField w)
  | imm1 _ => encodeImm op (raField w) 0 (immField w)
  | imm2 _ => encodeImm op (raField w) (rbField w) (immField w)

/-- The opcode and the must-be-zero bits. -/
def mask : Layout → CmdWord
  | reg0 _ => encodeImm 0xFF 0xF 0xF 0xFFFF
  | reg1 _ => encodeImm 0xFF 0 0xF 0xFFFF
  | reg2 _ => encodeImm 0xFF 0 0 0xFFFF
  | reg3 _ | bfly => encodeImm 0xFF 0 0 0x0FFF
  | imm0 _ => encodeImm 0xFF 0xF 0xF 0
  | imm1 _ => encodeImm 0xFF 0 0xF 0
  | imm2 _ => encodeImm 0xFF 0 0 0

/-- The condition on operands beside the must-be-zero bits. -/
def distinct (w : CmdWord) : Layout → Bool
  | bfly => raField w != rbField w
  | _ => true

/-- A format's decoder accepts exactly the words that are spelled as their used fields say. -/
theorem verdict_eq_ok_iff (l : Layout) {w : CmdWord} {i : Instr} :
    l.verdict w = .ok i ↔ l.spelling (opField w) w = w ∧ l.distinct w = true ∧ l.command w = i := by
  cases l with
  | reg0 j => simp [verdict, spelling, distinct, command, decodeReg0, accept_eq_ok, encodeImm_eq_iff, and_assoc]
  | reg1 f => simp [verdict, spelling, distinct, command, decodeReg1, accept_eq_ok, encodeImm_eq_iff]
  | reg2 f => simp [verdict, spelling, distinct, command, decodeReg2, accept_eq_ok, encodeImm_eq_iff]
  | reg3 f => simp [verdict, spelling, distinct, command, decodeReg3, accept_eq_ok, encodeReg_fields_iff]
  | imm0 f => simp [verdict, spelling, distinct, command, decodeImm0, accept_eq_ok, encodeImm_eq_iff]
  | imm1 f => simp [verdict, spelling, distinct, command, decodeImm1, accept_eq_ok, encodeImm_eq_iff]
  | imm2 f => simp [verdict, spelling, distinct, command, decodeImm2, encodeImm_eq_iff]
  | bfly =>
    by_cases hz : z12Field w = 0#12 <;> by_cases hab : raField w = rbField w <;>
      simp [verdict, spelling, distinct, command, decodeBfly, encodeReg_fields_iff, hz, hab]

/-- The mask of a format keeps the opcode and the bits its spelling leaves zero. -/
theorem and_mask_iff (l : Layout) {w : CmdWord} {op : BitVec 8} :
    w &&& l.mask = encodeImm op 0 0 0 ↔ opField w = op ∧ l.spelling (opField w) w = w := by
  have whole4 (a : BitVec 4) : a &&& 0xF = a := BitVec.and_allOnes
  have whole16 (a : BitVec 16) : a &&& 0xFFFF = a := BitVec.and_allOnes
  have none4 (a : BitVec 4) : a &&& 0 = 0 := BitVec.and_zero
  have none16 (a : BitVec 16) : a &&& 0 = 0 := BitVec.and_zero
  cases l with
  | reg3 | bfly =>
    exact and_mask_eq_iff.trans (by simp only [spelling, encodeReg_fields_iff, immField_and_z12_iff, none4, true_and])
  | _ =>
    exact and_mask_eq_iff.trans (by
      simp only [spelling, encodeImm_eq_iff, whole4, whole16, none4, none16, true_and, and_true])

end Layout

/-! Rows of the opcode map (R84) -/

/-- The row `r` has the layout `l`: the decoder, the encoder and the table agree about it. -/
structure Arm (r : OpcodeRow) (l : Layout) : Prop where
  pat_eq : r.pat = encodeImm (opField r.pat) 0 0 0 := by rfl
  mask_eq : r.mask = l.mask := by rfl
  decode_eq : ∀ w, opField w = opField r.pat → decode w = l.verdict w := by intro w h; rw [decode, h]; rfl
  encode_eq : ∀ w, encode (l.command w) = l.spelling (opField r.pat) w := by intro w; rfl
  wellFormed_eq : ∀ w, (l.command w).wellFormed = l.distinct w := by intro w; rfl
  mnemonic_eq : ∀ w, (l.command w).mnemonic = r.mnemonic := by intro w; rfl
  distinct_iff : ∀ w, l.distinct w = true ↔ (r.mnemonic = "BFLY" → raField w ≠ rbField w) := by
    simp [Layout.distinct]

/-- The layouts of the rows of `opcodeTable`, in the table's order. -/
def layouts : List Layout :=
  [.reg0 .nop, .reg1 .setr, .reg1 .getr, .reg2 .mov, .imm0 .getc, .imm1 .setctx, .imm2 .ldc, .imm2 .stc, .imm1 .sett,
    .imm1 .gett, .reg0 .clrerr,
    .reg3 .add, .reg3 .sub, .reg2 .neg, .reg3 .mul, .reg3 .pow, .reg2 .pwmul, .reg2 .inv, .reg0 .tbuild, .imm1 .twd,
    .reg2 .brev, .reg1 .brperm, .bfly, .reg1 .nttfwd, .reg1 .nttinv, .imm1 .setlimb, .imm0 .crtbuild, .reg1 .compose,
    .reg1 .decomp, .reg2 .rescale]

/-- Row by row, each by running the tables. -/
theorem opcodeTable_arms : List.Forall₂ Arm opcodeTable layouts := by
  constructorm* List.Forall₂ _ _ _ <;> exact {}

theorem exists_arm {r : OpcodeRow} (hr : r ∈ opcodeTable) : ∃ l, Arm r l := by
  obtain ⟨n, rfl⟩ := List.get_of_mem hr
  exact ⟨_, (List.forall₂_iff_get.1 opcodeTable_arms).2 n n.2 (n.2.trans_eq opcodeTable_arms.length_eq)⟩

/-- The opcodes of the rows, in the table's order. -/
def opcodes : List Nat := opcodeTable.map fun r => (opField r.pat).toNat

theorem opcodes_eq :
    opcodes = [0x00, 0x01, 0x02, 0x03, 0x04, 0x05, 0x06, 0x07, 0x08, 0x09, 0x0A, 0x10, 0x11, 0x12, 0x20, 0x21, 0x22,
      0x30, 0x40, 0x41, 0x50, 0x51, 0x60, 0x61, 0x62, 0x70, 0x71, 0x72, 0x80, 0x81] := by
  rfl

theorem opcodes_nodup : opcodes.Nodup := by
  rw [opcodes_eq]
  decide

/-- No two rows share an opcode. -/
theorem eq_of_opField_pat {r r' : OpcodeRow} (hr : r ∈ opcodeTable) (hr' : r' ∈ opcodeTable)
    (h : opField r.pat = opField r'.pat) : r = r' :=
  List.inj_on_of_nodup_map opcodes_nodup hr hr' (congrArg BitVec.toNat h)

theorem decode_of_unassigned {w : CmdWord} (h : (opField w).toNat ∉ opcodes) :
    decode w = .error .unassignedOpcode := by
  rw [opcodes_eq] at h
  unfold decode
  split
  case h_31 => rfl
  -- every other arm's opcode stands in the table
  all_goals exact absurd (by simp [*]) h

section Rows

variable {r : OpcodeRow} {l : Layout} {w : CmdWord} {i : Instr}

/-- What it is for a row to select a word (R82). -/
theorem Arm.selects_iff (harm : Arm r l) :
    w &&& r.mask = r.pat ↔ opField w = opField r.pat ∧ l.spelling (opField w) w = w := by
  rw [harm.mask_eq, ← l.and_mask_iff, ← harm.pat_eq]

/-- The verdict on a word with a row's opcode. -/
theorem Arm.decode_eq_ok_iff (harm : Arm r l) (hop : opField w = opField r.pat) :
    decode w = .ok i ↔ w &&& r.mask = r.pat ∧ l.distinct w = true ∧ l.command w = i := by
  rw [harm.decode_eq w hop, l.verdict_eq_ok_iff, harm.selects_iff, and_iff_right hop]

/-- A word that decodes is selected by a row, whose layout names the command. -/
theorem exists_row_of_decode (h : decode w = .ok i) :
    ∃ r ∈ opcodeTable, ∃ l, Arm r l ∧ w &&& r.mask = r.pat ∧ l.distinct w = true ∧ l.command w = i := by
  have assigned : (opField w).toNat ∈ opcodes := by
    by_contra unassigned
    rw [decode_of_unassigned unassigned] at h
    nomatch h
  obtain ⟨r, hr, hop⟩ := List.mem_map.1 assigned
  obtain ⟨l, harm⟩ := exists_arm hr
  exact ⟨r, hr, l, harm, (harm.decode_eq_ok_iff (BitVec.eq_of_toNat_eq hop.symm)).1 h⟩

end Rows

/-- Settles O2: the row that selects the word leaves no bit of it unread. -/
theorem decodedWordIsItsEncoding : Obligations.DecodedWordIsItsEncoding := by
  intro w i h
  obtain ⟨r, -, l, harm, selected, distinct, rfl⟩ := exists_row_of_decode h
  obtain ⟨hop, spelled⟩ := harm.selects_iff.1 selected
  exact ⟨(harm.wellFormed_eq w).trans distinct, by rw [harm.encode_eq, ← hop, spelled]⟩

/-- Settles O3: by the layout of the row; two rows that select one word share its opcode. -/
theorem decodingFollowsOpcodeMap : Obligations.DecodingFollowsOpcodeMap := by
  refine fun w => ⟨fun i h => ?_, fun r hr selected distinct => ?_⟩
  · obtain ⟨r, hr, l, harm, selected, distinct, rfl⟩ := exists_row_of_decode h
    refine ⟨r, hr, selected, (harm.mnemonic_eq w).symm, (harm.distinct_iff w).1 distinct, ?_⟩
    intro r' hr' selected'
    obtain ⟨l', harm'⟩ := exists_arm hr'
    exact eq_of_opField_pat hr' hr ((harm'.selects_iff.1 selected').1.symm.trans (harm.selects_iff.1 selected).1)
  · obtain ⟨l, harm⟩ := exists_arm hr
    exact ⟨l.command w,
      (harm.decode_eq_ok_iff (harm.selects_iff.1 selected).1).2 ⟨selected, (harm.distinct_iff w).2 distinct, rfl⟩,
      harm.mnemonic_eq w⟩

/-! The round trip: every format reads back the operands it was given -/

section RoundTrip

variable (op : BitVec 8) (ra rb rc : BitVec 4) (imm : Imm16)

theorem immField_encodeReg_of_rc_zero : immField (encodeReg op ra rb 0#4) = 0 := immField_encodeReg ..

theorem decodeReg0_encodeReg (i : Instr) : decodeReg0 (encodeReg op 0#4 0#4 0#4) i = .ok i := by
  rw [decodeReg0, raField_encodeReg, rbField_encodeReg, immField_encodeReg_of_rc_zero]
  rfl

theorem decodeReg1_encodeReg (f : BitVec 4 → Instr) : decodeReg1 (encodeReg op ra 0#4 0#4) f = .ok (f ra) := by
  rw [decodeReg1, raField_encodeReg, rbField_encodeReg, immField_encodeReg_of_rc_zero]
  rfl

theorem decodeReg2_encodeReg (f : BitVec 4 → BitVec 4 → Instr) :
    decodeReg2 (encodeReg op ra rb 0#4) f = .ok (f ra rb) := by
  rw [decodeReg2, raField_encodeReg, rbField_encodeReg, immField_encodeReg_of_rc_zero]
  rfl

theorem decodeReg3_encodeReg (f : BitVec 4 → BitVec 4 → BitVec 4 → Instr) :
    decodeReg3 (encodeReg op ra rb rc) f = .ok (f ra rb rc) := by
  rw [decodeReg3, raField_encodeReg, rbField_encodeReg, rcField_encodeReg, z12Field_encodeReg]
  rfl

theorem decodeBfly_encodeReg (h : ra ≠ rb) : decodeBfly (encodeReg op ra rb rc) = .ok (.bfly ra rb rc) := by
  simp [decodeBfly, raField_encodeReg, rbField_encodeReg, rcField_encodeReg, z12Field_encodeReg, h]

theorem decodeImm0_encodeImm (f : Imm16 → Instr) : decodeImm0 (encodeImm op 0#4 0#4 imm) f = .ok (f imm) := by
  rw [decodeImm0, raField_encodeImm, rbField_encodeImm, immField_encodeImm]
  rfl

theorem decodeImm1_encodeImm (f : BitVec 4 → Imm16 → Instr) :
    decodeImm1 (encodeImm op ra 0#4 imm) f = .ok (f ra imm) := by
  rw [decodeImm1, raField_encodeImm, rbField_encodeImm, immField_encodeImm]
  rfl

theorem decodeImm2_encodeImm (f : BitVec 4 → BitVec 4 → Imm16 → Instr) :
    decodeImm2 (encodeImm op ra rb imm) f = .ok (f ra rb imm) := by
  rw [decodeImm2, raField_encodeImm, rbField_encodeImm, immField_encodeImm]

end RoundTrip

/-- Settles O1: the opcode selects the decoder of the command's format, which reads back the operands. -/
theorem decodeEncodeRoundTrip : Obligations.DecodeEncodeRoundTrip := by
  intro i wellFormed
  cases i with
  | bfly ra rb rc =>
    have distinct : ra ≠ rb := by simpa [Instr.wellFormed] using wellFormed
    simp [decode, encode, opField_encodeReg, decodeBfly_encodeReg, distinct]
  | _ =>
    simp [decode, encode, opField_encodeReg, opField_encodeImm, decodeReg0_encodeReg, decodeReg1_encodeReg,
      decodeReg2_encodeReg, decodeReg3_encodeReg, decodeImm0_encodeImm, decodeImm1_encodeImm, decodeImm2_encodeImm]

/-- Settles O4: by running the decoder on each word. -/
theorem writtenWordsDecode : Obligations.WrittenWordsDecode := by
  unfold Obligations.WrittenWordsDecode
  decide

end Sys2Proof.Laws
end

section
/-! PROOF. The two ends of a decoded word: an illegal one is answered with `IllegalCommand` (30_encoding.md R86), and a
command other than `SETR` does not see the write datum (R80). -/

namespace Sys2Proof.Machine

open Sys2Proof

/-- An error changes `STATUS.ERR`, `STATUS.STICKY` and the responses only (60_exceptions.md R210). -/
theorem State.rejected_raised (s : State) (e : Err) : s.rejected (s.raised e) e.code where
  x := s.raised_getX e
  tuple := s.raised_getT e
  memory := ⟨s.raised_bufWord e, s.raised_romWord e⟩
  csrs := ⟨rfl, rfl, rfl, rfl, rfl, rfl, rfl, rfl, s.raised_getLimb e, s.raised_getCrte e⟩
  valid := ⟨rfl, rfl, rfl⟩
  sticky := rfl
  ended := ⟨rfl, rfl, rfl, rfl, rfl⟩

/-- The two kinds of illegal word of R86 decode to no command. -/
theorem decode_of_illegal {w : CmdWord}
    (h : (∀ r ∈ opcodeTable, w &&& r.mask ≠ r.pat) ∨ (w &&& 0xFF000FFF = 0x60000000 ∧ raField w = rbField w)) :
    ∃ e, decode w = .error e := by
  cases hdecode : decode w with
  | error e => exact ⟨e, rfl⟩
  | ok i =>
    obtain ⟨r, hr, selected, -, distinct, unique⟩ := (Laws.decodingFollowsOpcodeMap w).1 i hdecode
    rcases h with unselected | ⟨selected', same⟩
    · exact absurd selected (unselected r hr)
    · obtain rfl := unique ⟨"BFLY", 0x60000000, 0xFF000FFF⟩ (by decide) selected'
      exact absurd same (distinct rfl)

/-- Settles O6: no such word decodes, and the error answered is that of code 8. -/
theorem illegalWordIsRejected : Obligations.IllegalWordIsRejected := by
  intro s cmd d rest hlegal hpending hillegal
  obtain ⟨e, hdecode⟩ := decode_of_illegal hillegal
  rw [← State.issue_eq s d rest]
  exact ⟨_, step_of_decode_error hlegal hpending hdecode, (s.issue d rest).rejected_raised .illegalCommand⟩

/-! The datum port -/

/-- The state with another datum on the port. -/
def State.withDatum (s : State) (d : Nat) : State := { s with wdata := d }

/-- An outcome whose next state has another datum on the port. -/
def withDatum (d : Nat) : Out → Out
  | .next t => .next (t.withDatum d)
  | o => o

/-! One rule per piece a command is made of: a check that does not read the port passes the datum on. -/

section Rules

variable {s : State} {d : Nat} {body body' : Out}

theorem raise_withDatum (e : Err) : raise (s.withDatum d) e = withDatum d (raise s e) := rfl

theorem ite_raise_withDatum {c : Prop} [Decidable c] {e : Err} (hb : body' = withDatum d body) :
    (if c then raise (s.withDatum d) e else body') = withDatum d (if c then raise s e else body) := by
  rw [hb, raise_withDatum, apply_ite (withDatum d)]

theorem ite_body_withDatum {ok : Bool} {e : Err} (hb : body' = withDatum d body) :
    (if ok then body' else raise (s.withDatum d) e) = withDatum d (if ok then body else raise s e) := by
  rw [hb, raise_withDatum, apply_ite (withDatum d)]

theorem needContext_withDatum (hb : body' = withDatum d body) :
    needContext (s.withDatum d) body' = withDatum d (needContext s body) := ite_body_withDatum hb

theorem needTable_withDatum (hb : body' = withDatum d body) :
    needTable (s.withDatum d) body' = withDatum d (needTable s body) := ite_body_withDatum hb

theorem needCrt_withDatum (hb : body' = withDatum d body) :
    needCrt (s.withDatum d) body' = withDatum d (needCrt s body) := ite_body_withDatum hb

theorem needBound_withDatum {ok : Bool} (hb : body' = withDatum d body) :
    needBound (s.withDatum d) ok body' = withDatum d (needBound s ok body) := ite_body_withDatum hb

theorem needCanonical_withDatum {ok : Bool} (hb : body' = withDatum d body) :
    needCanonical (s.withDatum d) ok body' = withDatum d (needCanonical s ok body) := ite_body_withDatum hb

theorem residueOp1_withDatum {f : Nat → Nat → Nat} {ra rb : RegNum} :
    residueOp1 f ra rb (s.withDatum d) = withDatum d (residueOp1 f ra rb s) :=
  needContext_withDatum (needCanonical_withDatum rfl)

theorem residueOp2_withDatum {f : Nat → Nat → Nat → Nat} {ra rb rc : RegNum} :
    residueOp2 f ra rb rc (s.withDatum d) = withDatum d (residueOp2 f ra rb rc s) :=
  needContext_withDatum (needCanonical_withDatum rfl)

end Rules

theorem execGetc_withDatum (imm : Imm16) (s : State) (d : Nat) :
    execGetc imm (s.withDatum d) = withDatum d (execGetc imm s) := by
  have read : (s.withDatum d).csr imm.toNat = s.csr imm.toNat := rfl
  rw [execGetc, execGetc, read]
  cases s.csr imm.toNat <;> rfl

theorem execTbuild_withDatum (s : State) (d : Nat) : execTbuild (s.withDatum d) = withDatum d (execTbuild s) := by
  refine needContext_withDatum (ite_raise_withDatum (ite_raise_withDatum ?_))
  have root : psiSelect (s.withDatum d).params (s.withDatum d).n (s.withDatum d).modulus =
      psiSelect s.params s.n s.modulus := rfl
  rw [root]
  cases psiSelect s.params s.n s.modulus <;> rfl

/-- Every command but `SETR` does the same with another datum on the port. -/
theorem exec_withDatum {i : Instr} (hi : ∀ ra, i ≠ .setr ra) (s : State) (d : Nat) :
    exec i (s.withDatum d) = withDatum d (exec i s) := by
  cases i with
  | setr ra => exact absurd rfl (hi ra)
  | nop | getr | mov | clrerr => rfl
  | getc imm => exact execGetc_withDatum imm s d
  | tbuild => exact execTbuild_withDatum s d
  | add | sub | mul => exact residueOp2_withDatum
  | neg => exact residueOp1_withDatum
  | setctx => exact ite_raise_withDatum (ite_raise_withDatum rfl)
  | sett => exact needBound_withDatum (needCanonical_withDatum rfl)
  | gett => exact needBound_withDatum rfl
  | ldc | brev | brperm => exact needContext_withDatum (needBound_withDatum rfl)
  | pow => exact needContext_withDatum (needCanonical_withDatum rfl)
  | stc | pwmul => exact needContext_withDatum (needBound_withDatum (needCanonical_withDatum rfl))
  | inv => exact needContext_withDatum (needCanonical_withDatum (ite_raise_withDatum rfl))
  | bfly => exact ite_raise_withDatum (needContext_withDatum (needCanonical_withDatum rfl))
  | twd => exact needTable_withDatum (needBound_withDatum rfl)
  | nttfwd | nttinv => exact needTable_withDatum (needBound_withDatum (needCanonical_withDatum rfl))
  | setlimb => exact needBound_withDatum (ite_raise_withDatum rfl)
  | crtbuild => exact ite_raise_withDatum (ite_raise_withDatum (ite_raise_withDatum rfl))
  | compose => exact needCrt_withDatum (needCanonical_withDatum rfl)
  | decomp => exact needCrt_withDatum rfl
  | rescale => exact needCrt_withDatum (needCanonical_withDatum (ite_raise_withDatum rfl))

/-- Settles O26: no check and no effect but that of `SETR` reads the port. -/
theorem datumReadOnlyBySetr : Obligations.DatumReadOnlyBySetr := by
  intro i s t v hi h
  exact (exec_withDatum hi s v).trans (congrArg (withDatum v) h)

end Sys2Proof.Machine
end

section
/-! PROOF. The rules a command's proof is put together from: the word that spells it (30_encoding.md R81), the checks it
passes or fails (60_exceptions.md R205), and what its end leaves unchanged (R210, R211). -/

namespace Sys2Proof.Machine

open Sys2Proof

section Checks

variable {s : State} {ok : Bool} {body : Out}

theorem needContext_raises (h : s.status.ctxValid = false) : needContext s body = raise s .notConfigured := by
  rw [needContext, h]
  rfl

theorem needContext_passes (h : s.status.ctxValid = true) : needContext s body = body := if_pos h

theorem needBound_raises (h : ok = false) : needBound s ok body = raise s .indexOutOfRange := by
  rw [needBound, h]
  rfl

theorem needBound_passes (h : ok = true) : needBound s ok body = body := if_pos h

theorem needCanonical_raises (h : ok = false) : needCanonical s ok body = raise s .nonCanonical := by
  rw [needCanonical, h]
  rfl

theorem needCanonical_passes (h : ok = true) : needCanonical s ok body = body := if_pos h

end Checks

/-! The bound of `LDC` and `STC` and the canonicality check of one register, as propositions -/

section Operands

variable {s : State} {b : BufNum} {r : RegNum} {i : Nat}

theorem State.wordBound_eq_true (hb : b.toNat < s.params.nbuf) (hi : i < s.n) :
    (s.hasBuf b && decide (i < s.n)) = true := by
  simp [State.hasBuf, hb, hi]

theorem State.wordBound_eq_false (h : s.params.nbuf ≤ b.toNat ∨ s.n ≤ i) :
    (s.hasBuf b && decide (i < s.n)) = false := by
  simpa [State.hasBuf, imp_iff_not_or] using h

theorem State.canonX_eq_true (h : s.getX r < s.modulus) : s.canonX r = true := decide_eq_true h

theorem State.canonX_eq_false (h : s.modulus ≤ s.getX r) : s.canonX r = false := decide_eq_false (not_lt.2 h)

end Operands

/-! The ends of a command -/

/-- A command whose checks raise `e` answers that error, and the error changes nothing else. -/
theorem State.rejects_of_raise {s : State} {i : Instr} (e : Err) (h : exec i s = raise s e) : s.rejects i e.code :=
  ⟨_, h, s.rejected_raised e⟩

theorem State.onlyResponds_completed (s : State) (v : Nat) : s.onlyResponds (s.completed v) v where
  x := s.completed_getX v
  tuple := s.completed_getT v
  memory := ⟨s.completed_bufWord v, s.completed_romWord v⟩
  csrs := ⟨rfl, rfl, rfl, rfl, rfl, rfl, rfl, rfl, s.completed_getLimb v, s.completed_getCrte v⟩
  valid := ⟨rfl, rfl, rfl⟩
  succeeded := ⟨⟨rfl, rfl, rfl, rfl, rfl⟩, rfl⟩

theorem State.onlyX_setX (s : State) (r : RegNum) (v : Nat) : s.onlyX ((s.setX r v).completed 0) r v where
  value := by rw [State.completed_getX, State.getX_setX, if_pos rfl]
  others _ hq := s.getX_setX_ne v hq
  tuple := s.setX_getT r v
  memory := ⟨s.setX_bufWord r v, s.setX_romWord r v⟩
  csrs := ⟨rfl, rfl, rfl, rfl, rfl, rfl, rfl, rfl, s.setX_getLimb r v, s.setX_getCrte r v⟩
  valid := ⟨rfl, rfl, rfl⟩
  succeeded := ⟨⟨rfl, rfl, rfl, rfl, rfl⟩, rfl⟩

theorem State.onlyTuple_setT (s : State) {i : Nat} (v : Nat) (hi : i < s.t.length) :
    s.onlyTuple ((s.setT i v).completed 0) (fun j => j = i) (fun _ => v) where
  value j hj := by rw [State.completed_getT, s.getT_setT i v j hi, if_pos hj]
  others j hj := by rw [State.completed_getT, s.getT_setT i v j hi, if_neg hj]
  x := s.setT_getX i v
  memory := ⟨s.setT_bufWord i v, s.setT_romWord i v⟩
  csrs := ⟨rfl, rfl, rfl, rfl, rfl, rfl, rfl, rfl, s.setT_getLimb i v, s.setT_getCrte i v⟩
  valid := ⟨rfl, rfl, rfl⟩
  succeeded := ⟨⟨rfl, rfl, rfl, rfl, rfl⟩, rfl⟩

theorem State.onlyBuf_setBufWord (s : State) {b : BufNum} (i v : Nat) (hb : b.toNat < s.bufs.length) :
    s.onlyBuf ((s.setBufWord b i v).completed 0) b (fun j => j = i) (fun _ => v) where
  value j hj := by rw [State.completed_bufWord, s.bufWord_setBufWord b i v b j hb, if_pos ⟨rfl, hj⟩]
  sameBuf j hj := s.bufWord_setBufWord_ne b i v b j fun h => hj h.2
  otherBufs q hq j := s.bufWord_setBufWord_ne b i v q j fun h => hq h.1
  rom := s.setBufWord_romWord b i v
  x := s.setBufWord_getX b i v
  tuple := s.setBufWord_getT b i v
  csrs := ⟨rfl, rfl, rfl, rfl, rfl, rfl, rfl, rfl, s.setBufWord_getLimb b i v, s.setBufWord_getCrte b i v⟩
  valid := ⟨rfl, rfl, rfl⟩
  succeeded := ⟨⟨rfl, rfl, rfl, rfl, rfl⟩, rfl⟩

end Sys2Proof.Machine
end

section
/-! PROOF. Host interface, ring context and data movement (40_context_and_data.md R100 to R110). -/

namespace Sys2Proof.Machine

open Sys2Proof

/-! Commands that check nothing -/

/-- Settles O27: `NOP` is the completion update alone, `CLRERR` the same after clearing `STICKY`. -/
theorem nopAndClrerrComplete : Obligations.NopAndClrerrComplete := by
  intro s
  refine ⟨Laws.decodeEncodeRoundTrip .nop rfl, Laws.decodeEncodeRoundTrip .clrerr rfl,
    ⟨_, rfl, s.onlyResponds_completed 0⟩, ⟨s.clearSticky.completed 0, rfl, rfl, ?_⟩⟩
  exact ⟨s.clearSticky_getX, s.clearSticky_getT, ⟨s.clearSticky_bufWord, s.clearSticky_romWord⟩,
    ⟨rfl, rfl, rfl, rfl, rfl, rfl, rfl, rfl, s.clearSticky_getLimb, s.clearSticky_getCrte⟩, ⟨rfl, rfl, rfl⟩,
    ⟨rfl, rfl, rfl, rfl, rfl⟩⟩

/-- Settles O28: each of the three is one register write or one response, with no check before it. -/
theorem registerTransfersComplete : Obligations.RegisterTransfersComplete := by
  intro s ra rb
  exact ⟨Laws.decodeEncodeRoundTrip (.setr ra) rfl, Laws.decodeEncodeRoundTrip (.getr ra) rfl,
    Laws.decodeEncodeRoundTrip (.mov ra rb) rfl, ⟨_, rfl, s.onlyX_setX ra s.wdata⟩,
    ⟨_, rfl, s.onlyResponds_completed (s.getX ra)⟩, ⟨_, rfl, s.onlyX_setX ra (s.getX rb)⟩⟩

/-! `GETC`: the control registers by their numbers (10_state.md R30) -/

/-- The word of format `IMM0`, its must-be-zero bits 23:16 written as one field. -/
theorem encodeImm_zero_zero (op : BitVec 8) (imm : Imm16) : encodeImm op 0#4 0#4 imm = op ++ (0#8 ++ imm) :=
  congrArg (op ++ ·) (BitVec.append_assoc (x₁ := 0#4) (x₂ := 0#4) (x₃ := imm)).symm

/-- A field appended above `w` bits has weight `2^w`. -/
theorem toNat_append_eq_add {v w : Nat} (hi : BitVec v) (lo : BitVec w) :
    (hi ++ lo).toNat = lo.toNat + 2 ^ w * hi.toNat := by
  rw [BitVec.toNat_append, ← Nat.shiftLeft_add_eq_or_of_lt lo.isLt, Nat.shiftLeft_eq]
  ring

/-- `STATUS` by its fields (10_state.md R31). -/
theorem Status.word_toNat (st : Status) :
    st.word.toNat = st.ctxValid.toNat + 2 * st.tblValid.toNat + 4 * st.crtValid.toNat + 8 * st.sticky.toNat +
      16 * st.err.toNat := by
  simp only [Status.word, toNat_append_eq_add, BitVec.toNat_ofBool]
  ring

section ControlRegisters

variable {s : State} {num : Nat} {imm : Imm16}

/-- The numbers above those of the single registers: the two blocks of `KMAX` numbers. -/
theorem State.csr_of_high (h : 0x08 < num) :
    s.csr num =
      if 0x10 ≤ num ∧ num < 0x10 + s.params.kmax then some (s.getLimb (num - 0x10))
      else if 0x20 ≤ num ∧ num < 0x20 + s.params.kmax then some (s.getCrte (num - 0x20))
      else none := by
  have single {k : Nat} (hk : k ≤ 0x08) : num ≠ k := by omega
  simp [State.csr, single]

theorem State.csr_limb {j : Nat} (hj : j < s.params.kmax) : s.csr (0x10 + j) = some (s.getLimb j) := by
  rw [State.csr_of_high (by omega), if_pos (by omega), Nat.add_sub_cancel_left]

/-- With `KMAX <= 8` the blocks do not overlap. -/
theorem State.csr_crte {j : Nat} (hj : j < s.params.kmax) (bound : s.params.kmax ≤ 8) :
    s.csr (0x20 + j) = some (s.getCrte j) := by
  rw [State.csr_of_high (by omega), if_neg (by omega), if_pos (by omega), Nat.add_sub_cancel_left]

theorem State.csr_unassigned (high : 0x08 < num) (limb : ¬ (0x10 ≤ num ∧ num < 0x10 + s.params.kmax))
    (crte : ¬ (0x20 ≤ num ∧ num < 0x20 + s.params.kmax)) : s.csr num = none := by
  rw [State.csr_of_high high, if_neg limb, if_neg crte]

theorem exec_getc_of_csr {v : Nat} (h : s.csr imm.toNat = some v) : exec (.getc imm) s = finish s (s.fit v) := by
  simp only [exec, execGetc, h]

theorem exec_getc_of_unassigned (h : s.csr imm.toNat = none) : exec (.getc imm) s = raise s .indexOutOfRange := by
  simp only [exec, execGetc, h]

end ControlRegisters

/-- Settles O29: row by row of 10_state.md R30; a value that fits the port is responded as it stands. -/
theorem getcReadsControlRegisters : Obligations.GetcReadsControlRegisters := by
  intro s imm
  refine ⟨encodeImm_zero_zero 0x04 imm ▸ Laws.decodeEncodeRoundTrip (.getc imm) rfl, fun v assigned => ?_,
    fun high limb crte => ?_⟩
  · have read : s.csr imm.toNat = some v := by
      rcases assigned with ⟨num, rfl⟩ | ⟨num, rfl⟩ | ⟨num, rfl⟩ | ⟨num, rfl⟩ | ⟨num, rfl⟩ | ⟨num, rfl⟩ | ⟨num, rfl⟩ |
        ⟨num, rfl⟩ | ⟨num, rfl⟩ | ⟨j, hj, bound, num, rfl⟩ | ⟨j, hj, bound, num, rfl⟩ <;> rw [num]
      · exact congrArg some s.status.word_toNat
      -- the eight single registers after `STATUS`
      iterate 8 rfl
      · exact State.csr_limb hj
      · exact State.csr_crte hj bound
    exact ⟨_, s.fit v, exec_getc_of_csr read, s.onlyResponds_completed _, s.fit_lt v, State.fit_eq⟩
  · exact State.rejects_of_raise .indexOutOfRange (exec_getc_of_unassigned (State.csr_unassigned high limb crte))

/-! `SETCTX` -/

section Context

variable {s : State} {ra : RegNum} {imm : Imm16}

theorem exec_setctx_raises (h : s.params.lognmax < imm.toNat ∨ s.getX ra < 2 ∨ 2 ^ s.params.w ≤ s.getX ra) :
    exec (.setctx ra imm) s = raise s .invalidModulus := by
  by_cases degree : s.params.lognmax < imm.toNat
  · exact if_pos degree
  · exact (if_neg degree).trans (if_pos (h.resolve_left degree))

theorem exec_setctx_passes (degree : imm.toNat ≤ s.params.lognmax) (two_le : 2 ≤ s.getX ra)
    (width : s.getX ra < 2 ^ s.params.w) :
    exec (.setctx ra imm) s = finish (s.setContext (s.getX ra) imm.toNat) 0 :=
  (if_neg (not_lt.2 degree)).trans (if_neg (not_or.2 ⟨not_lt.2 two_le, not_le.2 width⟩))

theorem State.setContext_tblValid_iff {m l : Nat} :
    (s.setContext m l).status.tblValid = true ↔
      s.status.tblValid = true ∧ s.status.ctxValid = true ∧ l = s.logn ∧ m = s.modulus := by
  simp only [State.setContext_tblValid, Bool.and_eq_true, beq_iff_eq]

end Context

/-- Settles O30: the two checks of R105 raise one code; past them the effect writes `MOD`, `LOGN` and two flags, and every
other field is the one it was. -/
theorem setctxSetsRingContext : Obligations.SetctxSetsRingContext := by
  intro s ra imm
  refine ⟨Laws.decodeEncodeRoundTrip (.setctx ra imm) rfl,
    fun bad => State.rejects_of_raise .invalidModulus (exec_setctx_raises bad), fun degree two_le width => ?_⟩
  exact ⟨_, exec_setctx_passes degree two_le width, rfl, rfl, rfl, State.setContext_tblValid_iff, rfl, rfl, rfl, rfl,
    rfl, rfl, fun _ => rfl, fun _ => rfl, rfl, fun _ => rfl, fun _ => rfl, ⟨fun _ _ => rfl, fun _ => rfl⟩,
    ⟨⟨rfl, rfl, rfl, rfl, rfl⟩, rfl⟩⟩

/-! Words of the buffers -/

/-- Settles O31: the checks in their order, then one register write. -/
theorem ldcLoadsBufferWord : Obligations.LdcLoadsBufferWord := by
  intro s ra rb imm
  refine ⟨Laws.decodeEncodeRoundTrip (.ldc ra rb imm) rfl, fun noCtx => ?_, fun ctx out => ?_, fun ctx hb hi => ?_⟩
  · exact State.rejects_of_raise .notConfigured (needContext_raises noCtx)
  · exact State.rejects_of_raise .indexOutOfRange
      ((needContext_passes ctx).trans (needBound_raises (State.wordBound_eq_false out)))
  · exact ⟨_, (needContext_passes ctx).trans (needBound_passes (State.wordBound_eq_true hb hi)), s.onlyX_setX ra _⟩

/-- Settles O32: the checks in their order, then one word write to a buffer that exists. -/
theorem stcStoresBufferWord : Obligations.StcStoresBufferWord := by
  intro s ra rb imm count
  refine ⟨Laws.decodeEncodeRoundTrip (.stc ra rb imm) rfl, fun noCtx => ?_, fun ctx out => ?_,
    fun ctx hb hi high => ?_, fun ctx hb hi canon => ?_⟩
  · exact State.rejects_of_raise .notConfigured (needContext_raises noCtx)
  · exact State.rejects_of_raise .indexOutOfRange
      ((needContext_passes ctx).trans (needBound_raises (State.wordBound_eq_false out)))
  · exact State.rejects_of_raise .nonCanonical
      ((needContext_passes ctx).trans <| (needBound_passes (State.wordBound_eq_true hb hi)).trans <|
        needCanonical_raises (State.canonX_eq_false high))
  · exact ⟨_, (needContext_passes ctx).trans <| (needBound_passes (State.wordBound_eq_true hb hi)).trans <|
      needCanonical_passes (State.canonX_eq_true canon), s.onlyBuf_setBufWord imm.toNat _ (count ▸ hb)⟩

/-! Tuple registers -/

/-- Settles O33: the bound, for `SETT` then the width, then one write; no check reads the ring context or CRT state. -/
theorem tupleTransfersComplete : Obligations.TupleTransfersComplete := by
  intro s ra imm count
  refine ⟨Laws.decodeEncodeRoundTrip (.sett ra imm) rfl, Laws.decodeEncodeRoundTrip (.gett ra imm) rfl,
    fun out => ?_, fun bound wide => ?_, fun bound width => ?_, fun bound => ?_⟩
  · have fails := decide_eq_false (not_lt.2 out)
    exact ⟨State.rejects_of_raise .indexOutOfRange (needBound_raises fails),
      State.rejects_of_raise .indexOutOfRange (needBound_raises fails)⟩
  · exact State.rejects_of_raise .nonCanonical
      ((needBound_passes (decide_eq_true bound)).trans (needCanonical_raises (decide_eq_false (not_lt.2 wide))))
  · exact ⟨_, (needBound_passes (decide_eq_true bound)).trans (needCanonical_passes (decide_eq_true width)),
      s.onlyTuple_setT _ (count ▸ bound)⟩
  · exact ⟨_, needBound_passes (decide_eq_true bound), s.onlyX_setX ra _⟩

end Sys2Proof.Machine
end

section
/-! PROOF. The modular adder: `ADD`, `SUB`, `NEG` (41_modular_adder.md R121 to R123). -/

namespace Sys2Proof.Laws

open Sys2Proof Sys2Proof.Machine

/-! Modular arithmetic of canonical operands (00_scope.md R13) without a division: at most one multiple of `m` comes off -/

section Arithmetic

variable {a b m : Nat}

theorem modadd_of_lt (ha : a < m) (hb : b < m) : modadd a b m = if m ≤ a + b then a + b - m else a + b := by
  rw [modadd]
  split
  next wraps => rw [Nat.mod_eq_sub_mod wraps, Nat.mod_eq_of_lt (by omega)]
  next fits => exact Nat.mod_eq_of_lt (not_le.1 fits)

theorem modsub_of_lt (ha : a < m) (hb : b < m) : modsub a b m = if b ≤ a then a - b else a + m - b := by
  rw [modsub]
  split
  next hba => rw [Nat.sub_add_comm hba, Nat.add_mod_right, Nat.mod_eq_of_lt (by omega)]
  next hab => exact Nat.mod_eq_of_lt (by omega)

theorem modneg_of_lt (ha : a < m) : modneg a m = if a = 0 then 0 else m - a := by
  rw [modneg]
  split
  next zero => rw [zero, Nat.sub_zero, Nat.mod_self]
  next pos => exact Nat.mod_eq_of_lt (by omega)

end Arithmetic

end Sys2Proof.Laws

namespace Sys2Proof.Machine

open Sys2Proof

/-! The scalar commands: context, canonical operands, one register write -/

section ScalarCommands

variable {s : State} {i : Instr} {ra rb rc : RegNum} {v : Nat}

theorem State.canonX_and_eq_true (hb : s.getX rb < s.modulus) (hc : s.getX rc < s.modulus) :
    (s.canonX rb && s.canonX rc) = true := by
  rw [State.canonX_eq_true hb, State.canonX_eq_true hc, Bool.and_self]

theorem State.canonX_and_eq_false (h : s.modulus ≤ s.getX rb ∨ s.modulus ≤ s.getX rc) :
    (s.canonX rb && s.canonX rc) = false :=
  Bool.and_eq_false_iff.2 (h.imp State.canonX_eq_false State.canonX_eq_false)

/-- The three outcomes of a command that checks the context, then `ok`, and then writes one register. -/
theorem residueWrite_outcomes {ok : Bool}
    (h : exec i s = needContext s (needCanonical s ok (finish (s.setX ra v) 0))) :
    (s.status.ctxValid = false → s.rejects i 9) ∧
    (s.status.ctxValid = true → ok = false → s.rejects i 10) ∧
    (s.status.ctxValid = true → ok = true → ∃ t, exec i s = .next t ∧ s.onlyX t ra v) := by
  refine ⟨fun noCtx => ?_, fun ctx high => ?_, fun ctx canon => ?_⟩
  · exact State.rejects_of_raise .notConfigured (h.trans (needContext_raises noCtx))
  · exact State.rejects_of_raise .nonCanonical
      (h.trans <| (needContext_passes ctx).trans (needCanonical_raises high))
  · exact ⟨_, h.trans <| (needContext_passes ctx).trans (needCanonical_passes canon), s.onlyX_setX ra v⟩

theorem residueOp1_outcomes {f : Nat → Nat → Nat} (h : exec i s = residueOp1 f ra rb s)
    (value : s.getX rb < s.modulus → f (s.getX rb) s.modulus = v) :
    (s.status.ctxValid = false → s.rejects i 9) ∧
    (s.status.ctxValid = true → s.modulus ≤ s.getX rb → s.rejects i 10) ∧
    (s.status.ctxValid = true → s.getX rb < s.modulus → ∃ t, exec i s = .next t ∧ s.onlyX t ra v) := by
  obtain ⟨noContext, nonCanonical, writes⟩ := residueWrite_outcomes h
  refine ⟨noContext, fun ctx high => nonCanonical ctx (State.canonX_eq_false high), fun ctx hb => ?_⟩
  exact value hb ▸ writes ctx (State.canonX_eq_true hb)

theorem residueOp2_outcomes {f : Nat → Nat → Nat → Nat} (h : exec i s = residueOp2 f ra rb rc s)
    (value : s.getX rb < s.modulus → s.getX rc < s.modulus → f (s.getX rb) (s.getX rc) s.modulus = v) :
    (s.status.ctxValid = false → s.rejects i 9) ∧
    (s.status.ctxValid = true → (s.modulus ≤ s.getX rb ∨ s.modulus ≤ s.getX rc) → s.rejects i 10) ∧
    (s.status.ctxValid = true → s.getX rb < s.modulus → s.getX rc < s.modulus →
      ∃ t, exec i s = .next t ∧ s.onlyX t ra v) := by
  obtain ⟨noContext, nonCanonical, writes⟩ := residueWrite_outcomes h
  refine ⟨noContext, fun ctx high => nonCanonical ctx (State.canonX_and_eq_false high), fun ctx hb hc => ?_⟩
  exact value hb hc ▸ writes ctx (State.canonX_and_eq_true hb hc)

end ScalarCommands

/-- Settles O34: `ADD` is the scalar command of `modadd`; of a sum below `2m` at most one `m` comes off. -/
theorem addIsModularAddition : Obligations.AddIsModularAddition :=
  fun _ ra rb rc => ⟨Laws.decodeEncodeRoundTrip (.add ra rb rc) rfl, residueOp2_outcomes rfl Laws.modadd_of_lt⟩

/-- Settles O35: `SUB` is the scalar command of `modsub`, where `m` is added only to a negative difference. -/
theorem subIsModularSubtraction : Obligations.SubIsModularSubtraction :=
  fun _ ra rb rc => ⟨Laws.decodeEncodeRoundTrip (.sub ra rb rc) rfl, residueOp2_outcomes rfl Laws.modsub_of_lt⟩

/-- Settles O36: `NEG` is the scalar command of `modneg`; only the negative of zero is reduced. -/
theorem negIsModularNegation : Obligations.NegIsModularNegation :=
  fun _ ra rb => ⟨Laws.decodeEncodeRoundTrip (.neg ra rb) rfl, residueOp1_outcomes rfl Laws.modneg_of_lt⟩

end Sys2Proof.Machine
end

section
/-! PROOF. The modular multiplier: `MUL`, `POW`, `PWMUL` (42_modular_multiplier.md R131, R132, R134). -/

namespace Sys2Proof.Machine

open Sys2Proof

/-! The checks of a command on whole buffers, as propositions -/

section BufferChecks

variable {s : State} {a b : BufNum} {i : Nat}

theorem State.hasBuf_eq_true (h : b.toNat < s.params.nbuf) : s.hasBuf b = true := decide_eq_true h

theorem State.hasBuf_eq_false (h : s.params.nbuf ≤ b.toNat) : s.hasBuf b = false := decide_eq_false (not_lt.2 h)

theorem State.canonBuf_eq_true (h : ∀ i < s.n, s.bufWord b i < s.modulus) : s.canonBuf b = true :=
  (s.canonBuf_iff b).2 h

theorem State.canonBuf_eq_false (hi : i < s.n) (high : s.modulus ≤ s.bufWord b i) : s.canonBuf b = false :=
  Bool.eq_false_iff.2 fun canon => not_lt.2 high ((s.canonBuf_iff b).1 canon i hi)

theorem State.hasBuf_and_eq_true (ha : a.toNat < s.params.nbuf) (hb : b.toNat < s.params.nbuf) :
    (s.hasBuf a && s.hasBuf b) = true := by
  rw [State.hasBuf_eq_true ha, State.hasBuf_eq_true hb, Bool.and_self]

theorem State.hasBuf_and_eq_false (h : s.params.nbuf ≤ a.toNat ∨ s.params.nbuf ≤ b.toNat) :
    (s.hasBuf a && s.hasBuf b) = false :=
  Bool.and_eq_false_iff.2 (h.imp State.hasBuf_eq_false State.hasBuf_eq_false)

theorem State.canonBuf_and_eq_true (h : ∀ i < s.n, s.bufWord a i < s.modulus ∧ s.bufWord b i < s.modulus) :
    (s.canonBuf a && s.canonBuf b) = true := by
  rw [State.canonBuf_eq_true fun i hi => (h i hi).1, State.canonBuf_eq_true fun i hi => (h i hi).2, Bool.and_self]

theorem State.canonBuf_and_eq_false (h : ∃ i < s.n, s.modulus ≤ s.bufWord a i ∨ s.modulus ≤ s.bufWord b i) :
    (s.canonBuf a && s.canonBuf b) = false := by
  obtain ⟨i, hi, high⟩ := h
  exact Bool.and_eq_false_iff.2 (high.imp (State.canonBuf_eq_false hi) (State.canonBuf_eq_false hi))

end BufferChecks

/-- A command whose one effect is to rewrite the first `n` words of an existing buffer, word `i` with `v i`. -/
theorem State.onlyBuf_setBufWords (s : State) {b : BufNum} {ws : List Nat} {n : Nat} {v : Nat → Nat}
    (hb : b.toNat < s.bufs.length) (count : ws.length = n) (words : ∀ i < n, ws.getD i 0 = v i) :
    s.onlyBuf ((s.setBufWords b ws).completed 0) b (fun i => i < n) v where
  value i hi := by
    rw [State.completed_bufWord, s.bufWord_setBufWords b ws b i hb, if_pos ⟨rfl, count.symm ▸ hi⟩, words i hi]
  sameBuf i hi := s.bufWord_setBufWords_ne b ws b i fun h => hi (count ▸ h.2)
  otherBufs q hq i := s.bufWord_setBufWords_ne b ws q i fun h => hq h.1
  rom := s.setBufWords_romWord b ws
  x := s.setBufWords_getX b ws
  tuple := s.setBufWords_getT b ws
  csrs := ⟨rfl, rfl, rfl, rfl, rfl, rfl, rfl, rfl, s.setBufWords_getLimb b ws, s.setBufWords_getCrte b ws⟩
  valid := ⟨rfl, rfl, rfl⟩
  succeeded := ⟨⟨rfl, rfl, rfl, rfl, rfl⟩, rfl⟩

/-- `POW` checks its base only, so it is a scalar command of one residue operand; the exponent is a parameter of its
function. -/
theorem exec_pow (ra rb rc : RegNum) (s : State) :
    exec (.pow ra rb rc) s = residueOp1 (fun a m => modpow a (s.getX rc) m) ra rb s := rfl

/-- Settles O37: `MUL` is the scalar command of `modmul`, which reduces the exact product. -/
theorem mulIsModularMultiplication : Obligations.MulIsModularMultiplication :=
  fun _ ra rb rc => ⟨Laws.decodeEncodeRoundTrip (.mul ra rb rc) rfl, residueOp2_outcomes rfl fun _ _ => rfl⟩

/-- Settles O38: `POW` is the scalar command of `modpow`, and square and multiply gives the exact power reduced. -/
theorem powIsModularPower : Obligations.PowIsModularPower :=
  fun s ra rb rc => ⟨Laws.decodeEncodeRoundTrip (.pow ra rb rc) rfl,
    residueOp1_outcomes (exec_pow ra rb rc s) fun _ => Laws.modpow_eq ..⟩

/-- Settles O39: the checks in their order, then one rewriting of the first `n` words; every product is of words read
before it, so the two buffers may be one. -/
theorem pwmulIsPointwiseProduct : Obligations.PwmulIsPointwiseProduct := by
  intro s ra rb count
  refine ⟨Laws.decodeEncodeRoundTrip (.pwmul ra rb) rfl, fun noCtx => ?_, fun ctx out => ?_,
    fun ctx ha hb high => ?_, fun ctx ha hb canon => ?_⟩
  · exact State.rejects_of_raise .notConfigured (needContext_raises noCtx)
  · exact State.rejects_of_raise .indexOutOfRange
      ((needContext_passes ctx).trans (needBound_raises (State.hasBuf_and_eq_false out)))
  · exact State.rejects_of_raise .nonCanonical
      ((needContext_passes ctx).trans <| (needBound_passes (State.hasBuf_and_eq_true ha hb)).trans <|
        needCanonical_raises (State.canonBuf_and_eq_false high))
  · refine ⟨_, (needContext_passes ctx).trans <| (needBound_passes (State.hasBuf_and_eq_true ha hb)).trans <|
      needCanonical_passes (State.canonBuf_and_eq_true canon), s.onlyBuf_setBufWords (count ▸ ha) (by simp) ?_⟩
    intro i hi
    simp [List.getD_eq_getElem?_getD, hi, modmul]

end Sys2Proof.Machine
end

section
/-! PROOF. The modular inverse engine: `INV` and the laws of the inverse (43_modular_inverse_engine.md R141, R142). They
rest on one fact: `modinv a m` is the only value below `m` whose product with `a` is 1 modulo `m` (00_scope.md R13). -/

namespace Sys2Proof.Laws

open Sys2Proof Sys2Proof.Machine

section Inverse

variable {a b m y z : Nat}

/-- A factor of a product that is 1 modulo `m` is a unit. -/
theorem gcd_eq_one_of_mul_mod_eq_one (h : a * y % m = 1) : Nat.gcd a m = 1 :=
  Nat.coprime_of_mul_modEq_one y (show a * y % m = 1 % m by rw [← h, Nat.mod_mod])

theorem modinv_eq_of_mul_mod_eq_one (hm : 2 ≤ m) (hy : y < m) (h : a * y % m = 1) : modinv a m = y :=
  inverse_unique hm (modinv_lt a m (by omega)) hy (modinv_spec a m hm (gcd_eq_one_of_mul_mod_eq_one h)) h

/-- Where `y` and `z` invert `a` and `b`, the product of the inverses inverts the product. -/
theorem modmul_mul_modmul_mod_eq_one (hm : 2 ≤ m) (ha : a * y % m = 1) (hb : b * z % m = 1) :
    modmul a b m * modmul y z m % m = 1 :=
  calc modmul a b m * modmul y z m % m
      = (a * b) * (y * z) % m := (Nat.mul_mod _ _ _).symm
    _ = (a * y) * (b * z) % m := by rw [mul_mul_mul_comm]
    _ = (a * y % m) * (b * z % m) % m := Nat.mul_mod _ _ _
    _ = 1 := by rw [ha, hb, mul_one, Nat.mod_eq_of_lt hm]

theorem one_le_of_mul_mod_eq_one (h : a * y % m = 1) : 1 ≤ y :=
  Nat.pos_of_ne_zero fun zero => by simp [zero] at h

end Inverse

/-- Settles O41: each law names a value below `m` with the right product, and the inverse is the only such value. -/
theorem inverseLaws : Obligations.InverseLaws := by
  intro m a hm ha unit
  have inverts : a * modinv a m % m = 1 := modinv_spec a m hm unit
  have inverted : modinv a m * a % m = 1 := Nat.mul_comm a _ ▸ inverts
  refine ⟨inverts, modinv_eq_of_mul_mod_eq_one hm ha inverted,
    ⟨one_le_of_mul_mod_eq_one inverts, modinv_lt a m (by omega), gcd_eq_one_of_mul_mod_eq_one inverted⟩,
    fun b _ unitB => ?_⟩
  exact modinv_eq_of_mul_mod_eq_one hm (modmul_lt _ _ (by omega))
    (modmul_mul_modmul_mod_eq_one hm inverts (modinv_spec b m hm unitB))

end Sys2Proof.Laws

namespace Sys2Proof.Machine

open Sys2Proof

section Inv

variable {s : State} {ra rb : RegNum}

/-- With the context and a canonical operand, `INV` is left with its last check. -/
theorem exec_inv_of_canonical (ctx : s.status.ctxValid = true) (canon : s.getX rb < s.modulus) :
    exec (.inv ra rb) s =
      if Nat.gcd (s.getX rb) s.modulus ≠ 1 then raise s .notInvertible
      else finish (s.setX ra (modinv (s.getX rb) s.modulus)) 0 :=
  (needContext_passes ctx).trans (needCanonical_passes (State.canonX_eq_true canon))

theorem exec_inv_of_nonunit (ctx : s.status.ctxValid = true) (canon : s.getX rb < s.modulus)
    (nonunit : Nat.gcd (s.getX rb) s.modulus ≠ 1) : exec (.inv ra rb) s = raise s .notInvertible :=
  (exec_inv_of_canonical ctx canon).trans (if_pos nonunit)

theorem exec_inv_of_unit (ctx : s.status.ctxValid = true) (canon : s.getX rb < s.modulus)
    (unit : Nat.gcd (s.getX rb) s.modulus = 1) :
    exec (.inv ra rb) s = finish (s.setX ra (modinv (s.getX rb) s.modulus)) 0 :=
  (exec_inv_of_canonical ctx canon).trans (if_neg (not_not.2 unit))

end Inv

/-- Settles O40: the three checks in their order, then one register write of the only inverse below the modulus. -/
theorem invIsModularInverse : Obligations.InvIsModularInverse := by
  intro s ra rb two_le
  refine ⟨Laws.decodeEncodeRoundTrip (.inv ra rb) rfl, fun noCtx => ?_, fun ctx high => ?_,
    fun ctx canon nonunit => ?_, fun ctx canon unit => ?_⟩
  · exact State.rejects_of_raise .notConfigured (needContext_raises noCtx)
  · exact State.rejects_of_raise .nonCanonical
      ((needContext_passes ctx).trans (needCanonical_raises (State.canonX_eq_false high)))
  · exact State.rejects_of_raise .notInvertible (exec_inv_of_nonunit ctx canon nonunit)
  · exact ⟨_, _, exec_inv_of_unit ctx canon unit, s.onlyX_setX ra _, Laws.modinv_lt _ _ (by omega),
      Laws.modinv_spec _ _ (two_le ctx) unit,
      fun z hz inverse => (Laws.modinv_eq_of_mul_mod_eq_one (two_le ctx) hz inverse).symm⟩

end Sys2Proof.Machine
end

section
/-! PROOF. The twiddle ROM: `TBUILD`, `TWD` and what a valid table holds (44_twiddle_rom.md R145 to R149). The contents
rest on one fact: modulo `p` a root has `psi^n = -1`, so that `psi^(2n) = 1` and exponents count modulo `2n`. -/

namespace Sys2Proof.Laws

open Sys2Proof Sys2Proof.Machine

/-! Powers of a root, computed in `ZMod p` -/

section Root

variable {psi psiInv n p i : Nat}

theorem cast_pow_degree (hp : 2 ≤ p) (root : psi ^ n % p = p - 1) : (psi : ZMod p) ^ n = -1 := by
  have hmod : psi ^ n % p = (p - 1) % p := by rw [root, Nat.mod_eq_of_lt (by omega)]
  have hcast := (ZMod.natCast_eq_natCast_iff' _ _ _).2 hmod
  rwa [Nat.cast_pow, Nat.cast_sub (by omega), ZMod.natCast_self, zero_sub, Nat.cast_one] at hcast

theorem cast_pow_two_mul_degree (hp : 2 ≤ p) (root : psi ^ n % p = p - 1) : (psi : ZMod p) ^ (2 * n) = 1 := by
  rw [mul_comm, pow_mul, cast_pow_degree hp root, neg_one_sq]

theorem cast_modneg (a : Nat) (hp : 0 < p) : (modneg (a % p) p : ZMod p) = -a := by
  rw [modneg, ZMod.natCast_mod, Nat.cast_sub (Nat.mod_lt a hp).le, ZMod.natCast_self, ZMod.natCast_mod, zero_sub]

/-- The second half of the powers of a root is the negative of the first. -/
theorem pow_add_degree_mod (hp : 2 ≤ p) (root : psi ^ n % p = p - 1) (i : Nat) :
    psi ^ (i + n) % p = modneg (psi ^ i % p) p := by
  have hcast : ((psi ^ (i + n) : Nat) : ZMod p) = (modneg (psi ^ i % p) p : Nat) := by
    rw [cast_modneg _ (by omega), Nat.cast_pow, Nat.cast_pow, pow_add, cast_pow_degree hp root, mul_neg_one]
  rw [(ZMod.natCast_eq_natCast_iff' _ _ _).1 hcast, Nat.mod_eq_of_lt (modneg_lt _ (by omega))]

/-- A power of the inverse of a root is a power of the root, at the exponent counted back from `2n`. -/
theorem pow_two_mul_degree_sub_mod (hp : 2 ≤ p) (root : psi ^ n % p = p - 1) (inverse : psi * psiInv % p = 1)
    (hi : i ≤ 2 * n) : psi ^ ((2 * n - i) % (2 * n)) % p = psiInv ^ i % p := by
  have unit : (psi : ZMod p) * psiInv = 1 := by
    have hmod : psi * psiInv % p = 1 % p := by rw [inverse, Nat.mod_eq_of_lt hp]
    simpa using (ZMod.natCast_eq_natCast_iff' _ _ _).2 hmod
  have period := cast_pow_two_mul_degree hp root
  refine (ZMod.natCast_eq_natCast_iff' _ _ _).1 ?_
  rw [Nat.cast_pow, Nat.cast_pow]
  calc (psi : ZMod p) ^ ((2 * n - i) % (2 * n))
      = psi ^ (2 * n - i) := (pow_eq_pow_mod _ period).symm
    _ = psi ^ (2 * n - i) * (psi * psiInv) ^ i := by rw [unit, one_pow, mul_one]
    _ = psi ^ (2 * n - i + i) * psiInv ^ i := by rw [mul_pow, ← mul_assoc, ← pow_add]
    _ = psiInv ^ i := by rw [Nat.sub_add_cancel hi, period, one_mul]

/-- The inverse of a root is its last power of the table. -/
theorem eq_pow_of_inverse (hp : 2 ≤ p) (hn : 1 ≤ n) (root : psi ^ n % p = p - 1) (hlt : psiInv < p)
    (inverse : psi * psiInv % p = 1) : psiInv = psi ^ (2 * n - 1) % p := by
  have back := pow_two_mul_degree_sub_mod hp root inverse (show 1 ≤ 2 * n by omega)
  rw [pow_one, Nat.mod_eq_of_lt (by omega : 2 * n - 1 < 2 * n), Nat.mod_eq_of_lt hlt] at back
  exact back.symm

end Root

end Sys2Proof.Laws

namespace Sys2Proof.Machine

open Sys2Proof

section TwiddleRom

variable {s : State} {body : Out} {i : Nat}

theorem State.n_pos (s : State) : 0 < s.n := Nat.two_pow_pos s.logn

/-! The checks of the two commands -/

theorem needTable_raises (h : s.status.tblValid = false) : needTable s body = raise s .notConfigured := by
  rw [needTable, h]
  rfl

theorem needTable_passes (h : s.status.tblValid = true) : needTable s body = body := if_pos h

/-- In a context, both checks of `(n, p)` raise the same code (R145). -/
theorem exec_tbuild_raises (ctx : s.status.ctxValid = true) (h : ¬ s.modulus.Prime ∨ ¬ 2 * s.n ∣ s.modulus - 1) :
    exec .tbuild s = raise s .invalidModulus := by
  refine (needContext_passes ctx).trans ?_
  by_cases prime : isPrime s.modulus = false
  · exact if_pos prime
  · have isprime := (Laws.isPrime_iff _).1 (Bool.eq_true_of_not_eq_false prime)
    exact (if_neg prime).trans (if_pos fun dvd => h.elim (· isprime) (· (Nat.dvd_of_mod_eq_zero dvd)))

/-- Past its checks, `TBUILD` has a root to build the table of (R149). -/
theorem exec_tbuild_passes (ctx : s.status.ctxValid = true) (prime : s.modulus.Prime)
    (divides : 2 * s.n ∣ s.modulus - 1) :
    ∃ psi, psiSelect s.params s.n s.modulus = some psi ∧
      exec .tbuild s = finish (s.setTable psi (modinv psi s.modulus) (modinv (s.n % s.modulus) s.modulus)
        (powersOf psi (2 * s.n) s.modulus)) 0 := by
  obtain ⟨psi, root⟩ := Option.ne_none_iff_exists'.1 (psiSelect_ne_none prime divides)
  have isprime : isPrime s.modulus = true := (Laws.isPrime_iff _).2 prime
  refine ⟨psi, root, (needContext_passes ctx).trans <| (if_neg (isprime ▸ nofun)).trans <|
    (if_neg (not_not.2 (Nat.mod_eq_zero_of_dvd divides))).trans ?_⟩
  rw [root]

/-- The ROM after a table of powers is written. -/
theorem State.romWord_setTable_powersOf (s : State) (psi psiInv nInv len p j : Nat) :
    (s.setTable psi psiInv nInv (powersOf psi len p)).romWord j = if j < len then psi ^ j % p else s.romWord j := by
  rw [State.romWord_setTable, powersOf_length]
  split
  next hj => simp [powersOf, hj, Laws.modpow_eq]
  next => rfl

/-- The reference instance names no root, so that its choice is the least one (R146). -/
theorem psiSelect_reference (n p : Nat) : psiSelect Params.reference n p = leastRoot n p := rfl

/-! Reads of a valid table -/

/-- A valid table holds the powers of the inverse root at the exponents counted back from `2n` (R147). -/
theorem State.ringOk.romWord_sub (h : s.ringOk) (tbl : s.status.tblValid = true) (hi : i ≤ 2 * s.n) :
    s.romWord ((2 * s.n - i) % (2 * s.n)) = s.psiInv ^ i % s.modulus := by
  obtain ⟨-, -, root⟩ := h.root tbl
  obtain ⟨-, inverse⟩ := h.psiInv tbl
  have hn := s.n_pos
  rw [h.rom tbl _ (Nat.mod_lt _ (by omega)),
    Laws.pow_two_mul_degree_sub_mod (h.prime tbl).two_le root inverse hi]

end TwiddleRom

/-- Settles O45: the two checks in their order, then one register write. -/
theorem twdReadsTableWord : Obligations.TwdReadsTableWord := by
  intro s ra imm
  refine ⟨Laws.decodeEncodeRoundTrip (.twd ra imm) rfl, fun noTbl => ?_, fun tbl out => ?_, fun tbl bound => ?_⟩
  · exact State.rejects_of_raise .notConfigured (needTable_raises noTbl)
  · exact State.rejects_of_raise .indexOutOfRange
      ((needTable_passes tbl).trans (needBound_raises (decide_eq_false (not_lt.2 out))))
  · exact ⟨_, (needTable_passes tbl).trans (needBound_passes (decide_eq_true bound)), s.onlyX_setX ra _⟩

/-- Settles O20: no error that `TBUILD` ends in has code 2; and where `2n` divides `p - 1` there is a root, so that a
prime without one fails that check. -/
theorem noPrimitiveRootIsUnreachable : Obligations.NoPrimitiveRootIsUnreachable := by
  refine ⟨fun s t h => ?_, fun s ctx prime rootless => ?_⟩
  · rcases exec_next_cases h with ⟨e, he, hne, rfl⟩ | ⟨u, v, -, rfl⟩
    · have possible := code_mem_of_mem_errors he hne
      exact fun (code : e.code = 2) => absurd (code ▸ possible) (by decide)
    · exact (by decide : (0 : ErrCode) ≠ 2)
  · refine State.rejects_of_raise .invalidModulus (exec_tbuild_raises ctx (.inr fun divides => rootless ?_))
    obtain ⟨psi, root⟩ := exists_isRoot prime divides
    exact ⟨psi, (Laws.isRoot_iff _ _ _).1 root⟩

/-- Settles O42: the checks in their order; past them the table of the selected root is written, whose last word is the
inverse of the root, and every other field is the one it was. -/
theorem tbuildBuildsTable : Obligations.TbuildBuildsTable := by
  intro s
  refine ⟨Laws.decodeEncodeRoundTrip .tbuild rfl, fun noCtx => ?_, fun ctx composite => ?_,
    fun ctx _ indivisible => ?_, fun ctx prime divides => ?_⟩
  · exact State.rejects_of_raise .notConfigured (needContext_raises noCtx)
  · exact State.rejects_of_raise .invalidModulus (exec_tbuild_raises ctx (.inl composite))
  · exact State.rejects_of_raise .invalidModulus (exec_tbuild_raises ctx (.inr indivisible))
  · obtain ⟨psi, selected, hexec⟩ := exec_tbuild_passes ctx prime divides
    obtain ⟨pos, hlt, root⟩ := (Laws.isRoot_iff _ _ _).1 (Laws.psiSelect_some selected)
    have hn := s.n_pos
    have degree := Laws.degree_lt_of_dvd prime divides
    have words := s.romWord_setTable_powersOf psi (modinv psi s.modulus) (modinv (s.n % s.modulus) s.modulus)
      (2 * s.n) s.modulus
    have inverse := Laws.mul_modinv_of_prime prime pos hlt
    have inverseN : s.n * modinv (s.n % s.modulus) s.modulus % s.modulus = 1 := by
      rw [Nat.mod_eq_of_lt degree]
      exact Laws.mul_modinv_of_prime prime hn degree
    have last := Laws.eq_pow_of_inverse prime.two_le hn root (Laws.modinv_lt _ _ prime.pos) inverse
    exact ⟨_, hexec, selected, pos, hlt, root, fun j hj => (words j).trans (if_pos hj),
      fun j hj => (words j).trans (if_neg (not_lt.2 hj)), Laws.modinv_lt _ _ prime.pos, inverse,
      last.trans ((words _).trans (if_pos (by omega))).symm, Laws.modinv_lt _ _ prime.pos, inverseN, rfl, rfl, rfl, rfl,
      rfl, rfl, rfl, rfl, fun _ => rfl, fun _ => rfl, fun _ => rfl, fun _ => rfl, fun _ _ => rfl,
      ⟨⟨rfl, rfl, rfl, rfl, rfl⟩, rfl⟩⟩

/-- Settles O43: a success is the table of the selected root, which on the reference instance is the least one. -/
theorem referenceInstanceTakesLeastRoot : Obligations.ReferenceInstanceTakesLeastRoot := by
  intro s t reference h success
  rcases exec_next_cases h with ⟨e, -, -, rfl⟩ | ⟨u, v, hu, rfl⟩
  · exact absurd success e.code_ne_zero
  · cases hu with
    | @tbuild psi _ _ _ selected =>
      rw [reference, psiSelect_reference] at selected
      obtain ⟨isroot, least⟩ := Laws.leastRoot_some selected
      obtain ⟨-, hlt, root⟩ := (Laws.isRoot_iff _ _ _).1 isroot
      refine ⟨root, fun d pos (below : d < psi) power => ?_⟩
      have smaller := (Laws.isRoot_iff d s.n s.modulus).2 ⟨pos, below.trans hlt, power⟩
      exact Bool.eq_false_iff.1 (least d pos below) smaller

/-- Settles O44: every line of R147 reads a power of `psi` off the table; `psi^n = -1` gives the second half, and
`psi^(2n) = 1` the inverses. -/
theorem validTableContents : Obligations.ValidTableContents := by
  intro s hs tbl
  have ring := hs.ring
  have two_le := (ring.prime tbl).two_le
  have hn := s.n_pos
  have words := ring.rom tbl
  obtain ⟨pos, hlt, root⟩ := ring.root tbl
  obtain ⟨hinv, inverse⟩ := ring.psiInv tbl
  obtain ⟨-, inverseN⟩ := ring.nInv tbl
  refine ⟨fun j hj => ?_, (Laws.isRoot_iff _ _ _).2 ⟨pos, hlt, root⟩, ?_, ?_, ?_, fun j hj => ?_, ?_, inverse, ?_,
    fun i hi => ring.romWord_sub tbl (by omega), fun e he => ?_, fun e he => ?_⟩
  · rw [words j hj, Laws.modpow_eq]
  · rw [words 0 (by omega), pow_zero, Nat.mod_eq_of_lt two_le]
  · rw [words 1 (by omega), pow_one, Nat.mod_eq_of_lt hlt]
  · rw [words s.n (by omega), root]
  · rw [words (j + s.n) (by omega), words j (by omega), Laws.pow_add_degree_mod two_le root]
  · rw [words (2 * s.n - 1) (by omega)]
    exact Laws.eq_pow_of_inverse two_le hn root hinv inverse
  · rwa [modmul, Nat.mod_mul_mod]
  · rw [Nat.mod_eq_of_lt (by omega : 2 * e < 2 * s.n), words _ (by omega), pow_mul]
  · rw [ring.romWord_sub tbl (by omega), pow_mul]

end Sys2Proof.Machine
end

section
/-! PROOF. The bit reverse unit: the laws of `brev` (45_bit_reverse_unit.md R158) and the commands `BREV`, `BRPERM`
(R156, R157), whose values are stated by the bits of the index (00_scope.md R13). -/

namespace Sys2Proof.Laws

open Sys2Proof Sys2Proof.Machine

section BitReversal

variable {b l i j : Nat}

theorem brev_succ (l i : Nat) : brev (l + 1) i = i % 2 * 2 ^ l + brev l (i / 2) := rfl

theorem brev_lt (l i : Nat) : brev l i < 2 ^ l := by
  induction l generalizing i with
  | zero => exact Nat.one_pos
  | succ l ih =>
    have bit : i % 2 * 2 ^ l ≤ 1 * 2 ^ l := Nat.mul_le_mul_right _ (by omega)
    have rest := ih (i / 2)
    rw [brev_succ, pow_succ]
    omega

/-- Bit `k` of the index gets weight `2^(l-1-k)`. -/
theorem brev_eq_sum (l i : Nat) : brev l i = ∑ k ∈ Finset.range l, i / 2 ^ k % 2 * 2 ^ (l - 1 - k) := by
  induction l generalizing i with
  | zero => rfl
  | succ l ih =>
    rw [brev_succ, ih, Finset.sum_range_succ', add_comm, pow_zero, Nat.div_one, Nat.add_sub_cancel, Nat.sub_zero]
    refine congrArg (· + _) (Finset.sum_congr rfl fun k _ => ?_)
    rw [Nat.div_div_eq_div_mul, ← pow_succ', Nat.sub_sub, add_comm 1 k]

theorem brev_two_mul (l i : Nat) : brev (l + 1) (2 * i) = brev l i := by
  simp [brev_succ]

theorem brev_two_mul_add_one (l i : Nat) : brev (l + 1) (2 * i + 1) = brev l i + 2 ^ l := by
  have half : (2 * i + 1) / 2 = i := by omega
  rw [brev_succ, half, Nat.mul_add_mod, Nat.one_mod, one_mul, add_comm]

/-- The top bit of an index becomes the lowest bit of its reversal, which doubles the reversal of the bits below it. -/
theorem brev_top_bit (hb : b < 2) (hj : j < 2 ^ l) : brev (l + 1) (b * 2 ^ l + j) = 2 * brev l j + b := by
  induction l generalizing j with
  | zero =>
    obtain rfl : j = 0 := Nat.lt_one_iff.1 hj
    simp [brev, Nat.mod_eq_of_lt hb]
  | succ l ih =>
    have top : b * 2 ^ (l + 1) = 2 * (b * 2 ^ l) := by rw [pow_succ', mul_left_comm]
    have low : (b * 2 ^ (l + 1) + j) % 2 = j % 2 := by omega
    have rest : (b * 2 ^ (l + 1) + j) / 2 = b * 2 ^ l + j / 2 := by omega
    rw [brev_succ, low, rest, ih (by omega), brev_succ l j, pow_succ]
    ring

theorem brev_brev (hi : i < 2 ^ l) : brev l (brev l i) = i := by
  induction l generalizing i with
  | zero => exact (Nat.lt_one_iff.1 hi).symm
  | succ l ih =>
    calc brev (l + 1) (brev (l + 1) i)
        = 2 * brev l (brev l (i / 2)) + i % 2 := brev_top_bit (Nat.mod_lt i two_pos) (brev_lt l (i / 2))
      _ = 2 * (i / 2) + i % 2 := by rw [ih (by omega)]
      _ = i := Nat.div_add_mod i 2

end BitReversal

theorem permuteWords_getD {l i : Nat} (c : List Nat) (hi : i < 2 ^ l) :
    (permuteWords l c).getD i 0 = c.getD (brev l i) 0 := by
  simp [permuteWords, List.getD_eq_getElem?_getD, hi]

/-- Settles O48: the first bit of the index is the top bit of its reversal, and the top bit the first. -/
theorem bitReversalLaws : Obligations.BitReversalLaws :=
  fun l i hi => ⟨brev_lt l i, brev_brev hi, brev_two_mul l i, brev_two_mul_add_one l i, brev_eq_sum l i⟩

end Sys2Proof.Laws

namespace Sys2Proof.Machine

open Sys2Proof

/-- The three outcomes of a command that checks the context, then the bound `ok`, and then completes from `u`. -/
theorem boundedCommand_outcomes {s u : State} {i : Instr} {ok : Bool}
    (h : exec i s = needContext s (needBound s ok (finish u 0))) :
    (s.status.ctxValid = false → s.rejects i 9) ∧
    (s.status.ctxValid = true → ok = false → s.rejects i 4) ∧
    (s.status.ctxValid = true → ok = true → exec i s = .next (u.completed 0)) := by
  refine ⟨fun noCtx => ?_, fun ctx out => ?_, fun ctx bound => ?_⟩
  · exact State.rejects_of_raise .notConfigured (h.trans (needContext_raises noCtx))
  · exact State.rejects_of_raise .indexOutOfRange (h.trans <| (needContext_passes ctx).trans (needBound_raises out))
  · exact h.trans <| (needContext_passes ctx).trans (needBound_passes bound)

/-- Settles O46: the checks in their order, then one register write; a reversal is below `2^LOGN`, so it fits a register
of at least `LOGN` bits. -/
theorem brevReversesIndex : Obligations.BrevReversesIndex := by
  intro s ra rb
  have shape : exec (.brev ra rb) s = needContext s (needBound s (decide (s.getX rb < s.n))
    (finish (s.setX ra (s.fit (brev s.logn (s.getX rb)))) 0)) := rfl
  obtain ⟨noContext, outOfRange, writes⟩ := boundedCommand_outcomes shape
  refine ⟨Laws.decodeEncodeRoundTrip (.brev ra rb) rfl, noContext,
    fun ctx out => outOfRange ctx (decide_eq_false (not_lt.2 out)), fun ctx bound => ?_⟩
  exact ⟨_, _, _, writes ctx (decide_eq_true bound), Laws.brev_eq_sum .., s.onlyX_setX ra _, s.fit_lt _, State.fit_eq,
    fun wide => State.fit_eq ((Laws.brev_lt ..).trans_le (Nat.pow_le_pow_right two_pos wide))⟩

/-- Settles O47: the checks in their order, then one rewriting of the first `n` words; the reversed index stays below
`n`, so every word moved is one of the buffer's own. -/
theorem brpermPermutesBuffer : Obligations.BrpermPermutesBuffer := by
  intro s ra count
  have shape : exec (.brperm ra) s = needContext s (needBound s (s.hasBuf ra)
    (finish (s.setBufWords ra (permuteWords s.logn (s.bufWords ra))) 0)) := rfl
  obtain ⟨noContext, outOfRange, writes⟩ := boundedCommand_outcomes shape
  refine ⟨Laws.decodeEncodeRoundTrip (.brperm ra) rfl, noContext,
    fun ctx out => outOfRange ctx (State.hasBuf_eq_false out), fun ctx hra => ?_⟩
  refine ⟨_, writes ctx (State.hasBuf_eq_true hra),
    s.onlyBuf_setBufWords (count ▸ hra) (Laws.permuteWords_length ..) fun i hi => ?_⟩
  rw [Laws.permuteWords_getD _ hi, s.bufWords_getD ra _ (Laws.brev_lt ..), Laws.brev_eq_sum]

end Sys2Proof.Machine
end

section
/-! PROOF. The butterfly and the command `BFLY` (46_ntt_butterfly.md R160, R161). -/

namespace Sys2Proof.Laws

open Sys2Proof Sys2Proof.Machine

section Butterfly

variable {m : Nat} (u v w : Nat)

/-- The subtrahend is reduced, so adding `m` first keeps the natural-number difference from being cut off. -/
theorem modsub_mod (hm : 0 < m) : (modsub u (v % m) m : Int) = ((u : Int) - v) % m := by
  have le : v % m ≤ u + m := (Nat.mod_lt v hm).le.trans (Nat.le_add_left m u)
  rw [modsub, Int.natCast_mod, Nat.cast_sub le, Nat.cast_add, Int.natCast_mod, add_sub_right_comm, Int.add_emod_right,
    Int.sub_emod_emod]

theorem bflyMap_fst : (bflyMap u v w m).1 = (u + v * w) % m := Nat.add_mod_mod _ _ _

theorem bflyMap_snd (hm : 0 < m) : ((bflyMap u v w m).2 : Int) = ((u : Int) - v * w) % m :=
  (modsub_mod u (v * w) hm).trans (by rw [Nat.cast_mul])

end Butterfly

theorem decode_bfly_same_register (ra rc : RegNum) :
    decode (0x60#8 ++ (ra ++ (ra ++ (rc ++ 0#12)))) = .error .butterflySameRegisters := by
  show decode (encodeReg 0x60 ra ra rc) = _
  simp [decode, decodeBfly, opField_encodeReg, raField_encodeReg, rbField_encodeReg, z12Field_encodeReg]

end Sys2Proof.Laws

namespace Sys2Proof.Machine

open Sys2Proof

section Bfly

variable {s : State} {ra rb rc : RegNum}

theorem State.canonX_and_and_eq_false
    (h : s.modulus ≤ s.getX ra ∨ s.modulus ≤ s.getX rb ∨ s.modulus ≤ s.getX rc) :
    (s.canonX ra && s.canonX rb && s.canonX rc) = false := by
  rw [Bool.and_assoc]
  exact Bool.and_eq_false_iff.2 (h.imp State.canonX_eq_false State.canonX_and_eq_false)

theorem State.canonX_and_and_eq_true (ha : s.getX ra < s.modulus) (hb : s.getX rb < s.modulus)
    (hc : s.getX rc < s.modulus) : (s.canonX ra && s.canonX rb && s.canonX rc) = true := by
  rw [State.canonX_and_eq_true ha hb, State.canonX_eq_true hc, Bool.and_self]

/-- With two different registers in a context, `BFLY` is left with its last check. -/
theorem exec_bfly_of_context (ne : ra ≠ rb) (ctx : s.status.ctxValid = true) :
    exec (.bfly ra rb rc) s = needCanonical s (s.canonX ra && s.canonX rb && s.canonX rc)
      (finish ((s.setX ra (bflyMap (s.getX ra) (s.getX rb) (s.getX rc) s.modulus).1).setX rb
        (bflyMap (s.getX ra) (s.getX rb) (s.getX rc) s.modulus).2) 0) :=
  (if_neg ne).trans (needContext_passes ctx)

end Bfly

/-- Settles O49: the checks in their order, then two register writes whose values are both read before either. -/
theorem bflyIsCooleyTukey : Obligations.BflyIsCooleyTukey := by
  intro s ra rb rc
  refine ⟨fun ne => Laws.decodeEncodeRoundTrip (.bfly ra rb rc) (bne_iff_ne.2 ne), fun same => ?_, fun same => ?_,
    fun ne noCtx => ?_, fun ne ctx high => ?_, fun ne ctx ha hb hc => ?_⟩
  · exact same ▸ Laws.decode_bfly_same_register ra rc
  · exact State.rejects_of_raise .illegalCommand (if_pos same)
  · exact State.rejects_of_raise .notConfigured ((if_neg ne).trans (needContext_raises noCtx))
  · exact State.rejects_of_raise .nonCanonical
      ((exec_bfly_of_context ne ctx).trans (needCanonical_raises (State.canonX_and_and_eq_false high)))
  · refine ⟨_, (exec_bfly_of_context ne ctx).trans (needCanonical_passes (State.canonX_and_and_eq_true ha hb hc)),
      ?_, ?_, fun r hra hrb => ?_, fun _ => rfl, ⟨fun _ _ => rfl, fun _ => rfl⟩,
      ⟨rfl, rfl, rfl, rfl, rfl, rfl, rfl, rfl, fun _ => rfl, fun _ => rfl⟩, ⟨rfl, rfl, rfl⟩,
      ⟨⟨rfl, rfl, rfl, rfl, rfl⟩, rfl⟩⟩
    · rw [State.completed_getX, State.getX_setX_ne _ _ ne, State.getX_setX, if_pos rfl, Laws.bflyMap_fst]
    · rw [State.completed_getX, State.getX_setX, if_pos rfl, Laws.bflyMap_snd _ _ _ (Nat.zero_lt_of_lt ha)]
    · rw [State.completed_getX, State.getX_setX_ne _ _ hrb, State.getX_setX_ne _ _ hra]

end Sys2Proof.Machine
end

section
/-! PROOF. What the network of 46_ntt_butterfly.md R165 computes. After stage `s` every block of `2^s` words holds the
Fourier sums of the input words whose index ends in the block's number reversed; the butterflies of stage `s + 1` are
the even-odd recursion of those sums. All values are taken in `ZMod p`. -/

namespace Sys2Proof.Laws

open Sys2Proof Sys2Proof.Machine

/-- The Fourier sum of the first `n` terms of `f` at the `k`-th power of `z`. -/
def fourierSum {K : Type} [CommRing K] (z : K) (n : Nat) (f : Nat → K) (k : Nat) : K :=
  ∑ i ∈ Finset.range n, f i * z ^ (i * k)

section FourierSum

variable {K : Type} [CommRing K] {z : K} {n : Nat} (f : Nat → K) (k : Nat)

theorem sum_range_two_mul (n : Nat) :
    ∑ i ∈ Finset.range (2 * n), f i = ∑ i ∈ Finset.range n, f (2 * i) + ∑ i ∈ Finset.range n, f (2 * i + 1) := by
  induction n with
  | zero => simp
  | succ n ih =>
    rw [Nat.mul_succ, Finset.sum_range_succ, Finset.sum_range_succ, ih, Finset.sum_range_succ, Finset.sum_range_succ]
    ring

theorem fourierSum_congr {f g : Nat → K} (h : ∀ i < n, f i = g i) : fourierSum z n f k = fourierSum z n g k :=
  Finset.sum_congr rfl fun i hi => by rw [h i (Finset.mem_range.1 hi)]

/-- The even-odd recursion. -/
theorem fourierSum_two_mul (z : K) (n : Nat) :
    fourierSum z (2 * n) f k =
      fourierSum (z ^ 2) n (fun i => f (2 * i)) k + fourierSum (z ^ 2) n (fun i => f (2 * i + 1)) k * z ^ k := by
  simp only [fourierSum, sum_range_two_mul, Finset.sum_mul]
  congr 1 <;> refine Finset.sum_congr rfl fun i _ => ?_ <;> ring

/-- At the powers of an `n`-th root of 1 the Fourier sums have period `n`. -/
theorem fourierSum_add_period (h : z ^ n = 1) (m : Nat) : fourierSum z m f (n + k) = fourierSum z m f k := by
  refine Finset.sum_congr rfl fun i _ => ?_
  rw [mul_add, pow_add, mul_comm i n, pow_mul z n, h, one_pow, one_mul]

/-- In the second half of the period the odd terms count negative. -/
theorem fourierSum_two_mul_second_half (h : z ^ n = -1) :
    fourierSum z (2 * n) f (n + k) =
      fourierSum (z ^ 2) n (fun i => f (2 * i)) k - fourierSum (z ^ 2) n (fun i => f (2 * i + 1)) k * z ^ k := by
  have period : (z ^ 2) ^ n = 1 := by rw [pow_right_comm, h, neg_one_sq]
  rw [fourierSum_two_mul, fourierSum_add_period _ _ period, fourierSum_add_period _ _ period, pow_add, h]
  ring

end FourierSum

/-! One stage, block by block: block `b` of `2^(s+1)` words is made of the blocks `2 b` and `2 b + 1` of `2^s` words -/

section Stage

variable {p d s b j : Nat} (rom : Nat → Nat) (dir : Dir) (c : List Nat)

theorem cast_bflyMap_fst (u v w : Nat) : ((bflyMap u v w p).1 : ZMod p) = u + v * w := by
  rw [bflyMap_fst, ZMod.natCast_mod, Nat.cast_add, Nat.cast_mul]

theorem cast_bflyMap_snd (u v w : Nat) (hp : 0 < p) : ((bflyMap u v w p).2 : ZMod p) = u - v * w := by
  rw [← Int.cast_natCast, bflyMap_snd u v w hp, ZMod.intCast_mod, Int.cast_sub, Int.cast_mul, Int.cast_natCast,
    Int.cast_natCast, Int.cast_natCast]

/-- The butterfly `j` of block `b` in stage `s + 1` of a network of `d + s + 1` stages. -/
def stageButterfly (p d s b j : Nat) : Nat × Nat :=
  bflyMap (c.getD (2 * b * 2 ^ s + j) 0) (c.getD ((2 * b + 1) * 2 ^ s + j) 0)
    (rom (twiddleIndex dir (2 ^ (d + s + 1)) (2 * j * 2 ^ d))) p

theorem nttStage_getD {r : Nat} (hb : b < 2 ^ d) (hr : r < 2 ^ (s + 1)) :
    (nttStage rom dir (2 ^ (d + s + 1)) p (s + 1) c).getD (b * 2 ^ (s + 1) + r) 0 =
      if r < 2 ^ s then (stageButterfly rom dir c p d s b (r % 2 ^ s)).1
      else (stageButterfly rom dir c p d s b (r % 2 ^ s)).2 := by
  have pos : 0 < 2 ^ (s + 1) := Nat.two_pow_pos _
  have split : 2 ^ (d + s + 1) = 2 ^ d * 2 ^ (s + 1) := by rw [Nat.add_assoc, pow_add]
  have inside : b * 2 ^ (s + 1) + r < 2 ^ (d + s + 1) := by
    have := Nat.mul_le_mul_right (2 ^ (s + 1)) (Nat.succ_le_of_lt hb)
    rw [Nat.succ_mul] at this
    omega
  have block : (b * 2 ^ (s + 1) + r) / 2 ^ (s + 1) = b := by
    rw [Nat.add_comm, Nat.add_mul_div_right _ _ pos, Nat.div_eq_of_lt hr, Nat.zero_add]
  have offset : (b * 2 ^ (s + 1) + r) % 2 ^ (s + 1) = r := by rw [Nat.mul_add_mod', Nat.mod_eq_of_lt hr]
  have half : 2 ^ (s + 1) / 2 = 2 ^ s := by rw [pow_succ, Nat.mul_div_cancel _ two_pos]
  have stride : 2 ^ (d + s + 1) / 2 ^ (s + 1) = 2 ^ d := by rw [split, Nat.mul_div_cancel _ pos]
  have upper : b * 2 ^ (s + 1) = 2 * b * 2 ^ s := by rw [pow_succ]; ring
  have lower (j : Nat) : 2 * b * 2 ^ s + j + 2 ^ s = (2 * b + 1) * 2 ^ s + j := by ring
  rw [nttStage, List.getD_eq_getElem _ _ (by simpa using inside), List.getElem_map, List.getElem_range]
  simp only [block, offset, half, stride]
  simp only [upper, lower, stageButterfly]

end Stage

/-! The invariant of the network, and what it says after the last stage -/

/-- The twiddles the network reads in one direction are the powers of `z` (R165). -/
def ReadsPowers {p : Nat} (rom : Nat → Nat) (dir : Dir) (n : Nat) (z : ZMod p) : Prop :=
  ∀ e < n, (rom (twiddleIndex dir n e) : ZMod p) = z ^ e

/-- Every block of `2^s` words of `c` holds the Fourier sums of every `2^d`-th term of `f`, from the reversed block
number on. -/
def BlocksTransformed {p : Nat} (z : ZMod p) (f : Nat → ZMod p) (d s : Nat) (c : List Nat) : Prop :=
  ∀ b < 2 ^ d, ∀ r < 2 ^ s,
    (c.getD (b * 2 ^ s + r) 0 : ZMod p) = fourierSum (z ^ (2 * 2 ^ d)) (2 ^ s) (fun i => f (brev d b + 2 ^ d * i)) r

section Network

variable {p : Nat} {rom : Nat → Nat} {dir : Dir} {z : ZMod p} {f : Nat → ZMod p} {c : List Nat}

/-- After the permutation every block is one word, the one with the reversed index. -/
theorem permuteWords_blocks (l : Nat) (c : List Nat) :
    BlocksTransformed z (fun i => (c.getD i 0 : ZMod p)) l 0 (permuteWords l c) := by
  intro b hb r hr
  obtain rfl : r = 0 := by simpa using hr
  rw [pow_zero, mul_one, add_zero, permuteWords_getD c hb]
  simp [fourierSum]

/-- A butterfly adds and subtracts the odd terms of its block's Fourier sums. -/
theorem cast_stageButterfly {d s b j : Nat} (hp : 0 < p) (twiddles : ReadsPowers rom dir (2 ^ (d + s + 1)) z)
    (hc : BlocksTransformed z f (d + 1) s c) (hb : b < 2 ^ d) (hj : j < 2 ^ s) :
    let y := z ^ (2 * 2 ^ d)
    let evens := fourierSum (y ^ 2) (2 ^ s) (fun i => f (brev d b + 2 ^ d * (2 * i))) j
    let odds := fourierSum (y ^ 2) (2 ^ s) (fun i => f (brev d b + 2 ^ d * (2 * i + 1))) j
    ((stageButterfly rom dir c p d s b j).1 : ZMod p) = evens + odds * y ^ j ∧
    ((stageButterfly rom dir c p d s b j).2 : ZMod p) = evens - odds * y ^ j := by
  have upperTerm (i : Nat) : brev d b + 2 ^ d * (2 * i) = brev (d + 1) (2 * b) + 2 ^ (d + 1) * i := by
    rw [brev_two_mul]
    ring
  have lowerTerm (i : Nat) : brev d b + 2 ^ d * (2 * i + 1) = brev (d + 1) (2 * b + 1) + 2 ^ (d + 1) * i := by
    rw [brev_two_mul_add_one]
    ring
  have square : (z ^ (2 * 2 ^ d)) ^ 2 = z ^ (2 * 2 ^ (d + 1)) := by ring
  have exponent : 2 * j * 2 ^ d < 2 ^ (d + s + 1) :=
    calc 2 * j * 2 ^ d = 2 ^ (d + 1) * j := by ring
      _ < 2 ^ (d + 1) * 2 ^ s := Nat.mul_lt_mul_of_pos_left hj (Nat.two_pow_pos (d + 1))
      _ = 2 ^ (d + s + 1) := by ring
  have twiddle : z ^ (2 * j * 2 ^ d) = (z ^ (2 * 2 ^ d)) ^ j := by ring
  have upper := hc (2 * b) (by omega) j hj
  have lower := hc (2 * b + 1) (by omega) j hj
  simp only [upperTerm, lowerTerm, square, stageButterfly, cast_bflyMap_fst, cast_bflyMap_snd _ _ _ hp, upper, lower,
    twiddles _ exponent, twiddle, and_self]

/-- The butterflies of a stage are the even-odd recursion of the Fourier sums. -/
theorem nttStage_blocks {d s : Nat} (hp : 0 < p) (twiddles : ReadsPowers rom dir (2 ^ (d + s + 1)) z)
    (root : z ^ 2 ^ (d + s + 1) = -1) (hc : BlocksTransformed z f (d + 1) s c) :
    BlocksTransformed z f d (s + 1) (nttStage rom dir (2 ^ (d + s + 1)) p (s + 1) c) := by
  intro b hb r hr
  have half : (z ^ (2 * 2 ^ d)) ^ 2 ^ s = -1 := by
    rw [← root]
    ring
  have butterfly {j : Nat} (hj : j < 2 ^ s) := cast_stageButterfly hp twiddles hc hb hj
  rw [nttStage_getD rom dir c hb hr, pow_succ' 2 s]
  split
  next first =>
    rw [Nat.mod_eq_of_lt first, (butterfly first).1, fourierSum_two_mul]
  next second =>
    obtain ⟨j, rfl⟩ : ∃ j, r = 2 ^ s + j := ⟨r - 2 ^ s, by omega⟩
    have hj : j < 2 ^ s := by
      rw [pow_succ] at hr
      omega
    rw [Nat.add_mod_left, Nat.mod_eq_of_lt hj, (butterfly hj).2, fourierSum_two_mul_second_half _ _ half]

/-- The first `s` stages. -/
theorem foldl_nttStage_blocks {l s d : Nat} (hp : 0 < p) (twiddles : ReadsPowers rom dir (2 ^ l) z)
    (root : z ^ 2 ^ l = -1) (hl : d + s = l) :
    BlocksTransformed z (fun i => (c.getD i 0 : ZMod p)) d s
      ((List.range s).foldl (fun c s => nttStage rom dir (2 ^ l) p (s + 1) c) (permuteWords l c)) := by
  induction s generalizing d with
  | zero =>
    subst hl
    exact permuteWords_blocks d c
  | succ s ih =>
    rw [List.range_succ, List.foldl_append]
    have before := ih (d := d + 1) (by omega)
    subst hl
    exact nttStage_blocks hp twiddles root before

/-- The network computes the Fourier sums at the powers of `z^2`, in natural order. -/
theorem cast_nttCore {l k : Nat} (hp : 0 < p) (twiddles : ReadsPowers rom dir (2 ^ l) z) (root : z ^ 2 ^ l = -1)
    (c : List Nat) (hk : k < 2 ^ l) :
    ((nttCore rom dir l p c).getD k 0 : ZMod p) = fourierSum (z ^ 2) (2 ^ l) (fun i => (c.getD i 0 : ZMod p)) k := by
  have whole := foldl_nttStage_blocks (c := c) (d := 0) hp twiddles root (Nat.zero_add l) 0 Nat.one_pos k hk
  simpa [nttCore_eq, brev] using whole

end Network

end Sys2Proof.Laws
end

section
/-! PROOF. The transforms as formulas (00_scope.md R16) over a ring: that the words of `NTTFWD` and `NTTINV` are their
values (46_ntt_butterfly.md R166 to R168), that they undo each other (R169), and the product law (R170). -/

namespace Sys2Proof.Laws

open Sys2Proof Sys2Proof.Machine

section Formulas

variable {K : Type} [CommRing K]

/-- Value `j` of the forward transform: the polynomial `a` at `psi^(2j+1)` (R167). -/
def forwardTransform (psi : K) (n : Nat) (a : Nat → K) (j : Nat) : K :=
  ∑ i ∈ Finset.range n, a i * psi ^ (i * (2 * j + 1))

/-- Value `i` of the inverse transform (R169). -/
def inverseTransform (nInv psiInv : K) (n : Nat) (A : Nat → K) (i : Nat) : K :=
  nInv * psiInv ^ i * ∑ j ∈ Finset.range n, A j * psiInv ^ (2 * i * j)

/-- Coefficient `k` of the product of two polynomials where the `n`-th power of the variable is -1 (00_scope.md R15). -/
def negacyclicProduct (n : Nat) (a b : Nat → K) (k : Nat) : K :=
  (∑ i ∈ Finset.range n, ∑ j ∈ Finset.range n, if i + j = k then a i * b j else 0) -
    ∑ i ∈ Finset.range n, ∑ j ∈ Finset.range n, if i + j = k + n then a i * b j else 0

variable {n : Nat} {a b : Nat → K}

theorem forwardTransform_congr (psi : K) (h : ∀ i < n, a i = b i) (j : Nat) :
    forwardTransform psi n a j = forwardTransform psi n b j :=
  Finset.sum_congr rfl fun i hi => by rw [h i (Finset.mem_range.1 hi)]

theorem inverseTransform_congr (nInv psiInv : K) (h : ∀ j < n, a j = b j) (i : Nat) :
    inverseTransform nInv psiInv n a i = inverseTransform nInv psiInv n b i :=
  congrArg (nInv * psiInv ^ i * ·) (Finset.sum_congr rfl fun j hj => by rw [h j (Finset.mem_range.1 hj)])

/-- The forward transform is a Fourier sum of the twisted words (R166). -/
theorem fourierSum_twisted (psi : K) (k : Nat) :
    fourierSum (psi ^ 2) n (fun i => a i * psi ^ i) k = forwardTransform psi n a k :=
  Finset.sum_congr rfl fun i _ => by ring

/-- The inverse transform is a Fourier sum, scaled and untwisted (R168). -/
theorem fourierSum_scaled_untwisted (nInv psiInv : K) (k : Nat) :
    fourierSum (psiInv ^ 2) n a k * nInv * psiInv ^ k = inverseTransform nInv psiInv n a k := by
  have exponent (j : Nat) : (psiInv ^ 2) ^ (j * k) = psiInv ^ (2 * k * j) := by ring
  simp only [fourierSum, inverseTransform, exponent]
  ring

end Formulas

/-! The words of the two commands -/

section Words

variable {p l k : Nat} {rom : Nat → Nat} {c : List Nat}

theorem getD_map_range (f : Nat → Nat) {n i : Nat} (hi : i < n) : ((List.range n).map f).getD i 0 = f i := by
  simp [List.getD_eq_getElem?_getD, hi]

theorem cast_twistWords {n i : Nat} (hi : i < n) :
    ((twistWords rom n p c).getD i 0 : ZMod p) = c.getD i 0 * rom i := by
  rw [twistWords, getD_map_range _ hi, modmul, ZMod.natCast_mod, Nat.cast_mul]

theorem cast_scaleWords (v : Nat) {n i : Nat} (hi : i < n) :
    ((scaleWords v n p c).getD i 0 : ZMod p) = c.getD i 0 * v := by
  rw [scaleWords, getD_map_range _ hi, modmul, ZMod.natCast_mod, Nat.cast_mul]

theorem cast_untwistWords {n i : Nat} (hi : i < n) :
    ((untwistWords rom n p c).getD i 0 : ZMod p) = c.getD i 0 * rom (twiddleIndex .inv n i) := by
  rw [untwistWords, getD_map_range _ hi, modmul, ZMod.natCast_mod, Nat.cast_mul]
  rfl

theorem cast_forwardWords {psi : ZMod p} (hp : 0 < p) (twiddles : ReadsPowers rom .fwd (2 ^ l) psi)
    (root : psi ^ 2 ^ l = -1) (hk : k < 2 ^ l) :
    ((forwardWords rom l p c).getD k 0 : ZMod p) = forwardTransform psi (2 ^ l) (fun i => (c.getD i 0 : ZMod p)) k := by
  rw [forwardWords, cast_nttCore hp twiddles root _ hk, ← fourierSum_twisted]
  refine fourierSum_congr k fun i hi => ?_
  rw [cast_twistWords hi, ← twiddles i hi]
  rfl

theorem cast_inverseWords {psiInv : ZMod p} (hp : 0 < p) (nInv : Nat)
    (twiddles : ReadsPowers rom .inv (2 ^ l) psiInv) (root : psiInv ^ 2 ^ l = -1) (hk : k < 2 ^ l) :
    ((inverseWords rom nInv l p c).getD k 0 : ZMod p) =
      inverseTransform (nInv : ZMod p) psiInv (2 ^ l) (fun i => (c.getD i 0 : ZMod p)) k := by
  rw [inverseWords, cast_untwistWords hk, cast_scaleWords nInv hk, cast_nttCore hp twiddles root _ hk, twiddles k hk,
    fourierSum_scaled_untwisted]

end Words

/-! The round trip -/

/-- What the transforms need of `psi`, of its inverse and of the inverse of the degree `2^l`
(44_twiddle_rom.md R147). -/
structure TransformRoot {K : Type} [CommRing K] (l : Nat) (psi psiInv nInv : K) : Prop where
  root : psi ^ 2 ^ l = -1
  inverse : psi * psiInv = 1
  degree : ((2 ^ l : Nat) : K) * nInv = 1
  odd : (-1 : K) ≠ 1

namespace TransformRoot

variable {K : Type} [CommRing K] {l : Nat} {psi psiInv nInv : K} {a b : Nat → K}

theorem pow_two_mul_degree (h : TransformRoot l psi psiInv nInv) : psi ^ 2 ^ (l + 1) = 1 := by
  rw [pow_succ, pow_mul, h.root, neg_one_sq]

/-- What `sum_pow` leaves of a sum over the other index. -/
theorem sum_mul_sum_pow (h : TransformRoot l psi psiInv nInv) {i : Nat} (hi : i < 2 ^ l) :
    ∑ j ∈ Finset.range (2 ^ l), a j * nInv * (if i = j then ((2 ^ l : Nat) : K) else 0) = a i := by
  simp only [mul_ite, mul_zero, Finset.sum_ite_eq, Finset.mem_range, hi, if_true]
  rw [mul_assoc, mul_comm nInv, h.degree, mul_one]

/-- The powers of `psi` below `2n` are different. -/
theorem pow_injective (h : TransformRoot l psi psiInv nInv) {i j : Nat} (hi : i < 2 ^ (l + 1)) (hj : j < 2 ^ (l + 1))
    (heq : psi ^ i = psi ^ j) : i = j := by
  have order : orderOf psi = 2 ^ (l + 1) := orderOf_eq_prime_pow (h.root ▸ h.odd) h.pow_two_mul_degree
  exact (IsPrimitiveRoot.orderOf psi).pow_inj (order ▸ hi) (order ▸ hj) heq

variable [IsDomain K]

/-- The sum of a power of a root of 1 over all exponents vanishes unless the power is 1. -/
theorem sum_pow (h : TransformRoot l psi psiInv nInv) {i j : Nat} (hi : i < 2 ^ l) (hj : j < 2 ^ l) :
    ∑ k ∈ Finset.range (2 ^ l), (psi ^ (2 * i) * psiInv ^ (2 * j)) ^ k = if i = j then ((2 ^ l : Nat) : K) else 0 := by
  have cancel (m : Nat) : psi ^ m * psiInv ^ m = 1 := by rw [← mul_pow, h.inverse, one_pow]
  split
  next same => simp [same, cancel]
  next different =>
    have ne : psi ^ (2 * i) * psiInv ^ (2 * j) ≠ 1 := by
      intro one
      have powers : psi ^ (2 * i) = psi ^ (2 * j) :=
        calc psi ^ (2 * i) = psi ^ (2 * i) * psiInv ^ (2 * j) * psi ^ (2 * j) := by
              rw [mul_assoc, mul_comm (psiInv ^ _), cancel, mul_one]
          _ = psi ^ (2 * j) := by rw [one, one_mul]
      have := h.pow_injective (by rw [pow_succ]; omega) (by rw [pow_succ]; omega) powers
      omega
    have period : (psi ^ (2 * i) * psiInv ^ (2 * j)) ^ 2 ^ l = 1 :=
      calc (psi ^ (2 * i) * psiInv ^ (2 * j)) ^ 2 ^ l
          = (psi ^ 2 ^ l) ^ (2 * i) * (psiInv ^ 2 ^ l) ^ (2 * j) := by ring
        _ = (psi ^ 2 ^ l) ^ (2 * j) * (psiInv ^ 2 ^ l) ^ (2 * j) := by
            rw [h.root, pow_mul, pow_mul (-1 : K), neg_one_sq, one_pow, one_pow]
        _ = 1 := by rw [← mul_pow, cancel, one_pow]
    refine (mul_eq_zero.1 ?_).resolve_left (sub_ne_zero.2 ne)
    rw [mul_geom_sum, period, sub_self]

theorem forward_inverse (h : TransformRoot l psi psiInv nInv) {j : Nat} (hj : j < 2 ^ l) :
    forwardTransform psi (2 ^ l) (inverseTransform nInv psiInv (2 ^ l) a) j = a j := by
  have term (i k : Nat) : nInv * psiInv ^ i * (a k * psiInv ^ (2 * i * k)) * psi ^ (i * (2 * j + 1)) =
      a k * nInv * (psi ^ (2 * j) * psiInv ^ (2 * k)) ^ i :=
    calc nInv * psiInv ^ i * (a k * psiInv ^ (2 * i * k)) * psi ^ (i * (2 * j + 1))
        = a k * nInv * (psi ^ (2 * j) * psiInv ^ (2 * k)) ^ i * (psi * psiInv) ^ i := by ring
      _ = a k * nInv * (psi ^ (2 * j) * psiInv ^ (2 * k)) ^ i := by rw [h.inverse, one_pow, mul_one]
  simp only [forwardTransform, inverseTransform, Finset.mul_sum, Finset.sum_mul, term]
  rw [Finset.sum_comm, ← h.sum_mul_sum_pow (a := a) hj]
  refine Finset.sum_congr rfl fun k hk => ?_
  rw [← Finset.mul_sum, h.sum_pow hj (Finset.mem_range.1 hk)]

theorem inverse_forward (h : TransformRoot l psi psiInv nInv) {i : Nat} (hi : i < 2 ^ l) :
    inverseTransform nInv psiInv (2 ^ l) (forwardTransform psi (2 ^ l) a) i = a i := by
  have term (j k : Nat) : nInv * psiInv ^ i * (a k * psi ^ (k * (2 * j + 1)) * psiInv ^ (2 * i * j)) =
      a k * psi ^ k * psiInv ^ i * nInv * (psi ^ (2 * k) * psiInv ^ (2 * i)) ^ j := by ring
  simp only [forwardTransform, inverseTransform, Finset.mul_sum, Finset.sum_mul, term]
  have unit : psi ^ i * psiInv ^ i = 1 := by rw [← mul_pow, h.inverse, one_pow]
  rw [Finset.sum_comm]
  calc _ = ∑ k ∈ Finset.range (2 ^ l),
        a k * psi ^ k * psiInv ^ i * nInv * (if i = k then ((2 ^ l : Nat) : K) else 0) :=
        Finset.sum_congr rfl fun k hk => by
          rw [← Finset.mul_sum, h.sum_pow (Finset.mem_range.1 hk) hi]
          simp only [eq_comm]
    _ = a i * psi ^ i * psiInv ^ i := h.sum_mul_sum_pow hi
    _ = a i := by rw [mul_assoc, unit, mul_one]

end TransformRoot

/-! The product law: a polynomial value is multiplicative, and at an odd power of `psi` the `n`-th power is -1 -/

section Product

variable {K : Type} [CommRing K] {n : Nat}

/-- Exponent `m < 2n` reduced where the `n`-th power is -1: the sum has the one term with `k = m` or `k = m - n`. -/
theorem sum_wrapped_pow {y : K} (hy : y ^ n = -1) {m : Nat} (hm : m < 2 * n) :
    ∑ k ∈ Finset.range n, ((if m = k then 1 else 0) - (if m = k + n then 1 else 0)) * y ^ k = y ^ m := by
  by_cases low : m < n
  · have unwrapped (k : Nat) : m ≠ k + n := by omega
    simp [unwrapped, low]
  · obtain ⟨r, rfl⟩ : ∃ r, m = r + n := ⟨m - n, by omega⟩
    have wrapped (k : Nat) (hk : k ∈ Finset.range n) : r + n ≠ k := by
      have := Finset.mem_range.1 hk
      omega
    have hr : r < n := by omega
    rw [Finset.sum_congr rfl fun k hk => by rw [if_neg (wrapped k hk)], pow_add, hy]
    simp [hr]

theorem negacyclicProduct_eq (a b : Nat → K) (k : Nat) :
    negacyclicProduct n a b k = ∑ i ∈ Finset.range n, ∑ j ∈ Finset.range n,
      a i * b j * ((if i + j = k then 1 else 0) - (if i + j = k + n then 1 else 0)) := by
  simp only [negacyclicProduct, mul_sub, mul_ite, mul_one, mul_zero, Finset.sum_sub_distrib]

/-- The values of a negacyclic product are the products of the values. -/
theorem sum_negacyclicProduct {y : K} (hy : y ^ n = -1) (a b : Nat → K) :
    ∑ k ∈ Finset.range n, negacyclicProduct n a b k * y ^ k =
      (∑ i ∈ Finset.range n, a i * y ^ i) * ∑ j ∈ Finset.range n, b j * y ^ j := by
  rw [Finset.sum_mul_sum]
  simp only [negacyclicProduct_eq, Finset.sum_mul]
  rw [Finset.sum_comm]
  refine Finset.sum_congr rfl fun i hi => ?_
  rw [Finset.sum_comm]
  refine Finset.sum_congr rfl fun j hj => ?_
  have hm : i + j < 2 * n := by
    have := Finset.mem_range.1 hi
    have := Finset.mem_range.1 hj
    omega
  simp only [mul_assoc (a i * b j)]
  rw [← Finset.mul_sum, sum_wrapped_pow hy hm]
  ring

theorem forwardTransform_eq_sum_pow (psi : K) (a : Nat → K) (j : Nat) :
    forwardTransform psi n a j = ∑ i ∈ Finset.range n, a i * (psi ^ (2 * j + 1)) ^ i :=
  Finset.sum_congr rfl fun i _ => by rw [← pow_mul, mul_comm i]

/-- The forward transform takes the negacyclic product to the pointwise product. -/
theorem forwardTransform_negacyclicProduct {psi : K} (root : psi ^ n = -1) (a b : Nat → K) (j : Nat) :
    forwardTransform psi n (negacyclicProduct n a b) j = forwardTransform psi n a j * forwardTransform psi n b j := by
  have value : (psi ^ (2 * j + 1)) ^ n = -1 := by
    rw [pow_right_comm, root]
    exact Odd.neg_one_pow ⟨j, rfl⟩
  simp only [forwardTransform_eq_sum_pow, sum_negacyclicProduct value]

end Product

end Sys2Proof.Laws
end

section
/-! PROOF. The transform commands (46_ntt_butterfly.md R166 to R170): a valid table holds what the network and the
formulas need, and each command leaves the values of its formula in its buffer, so that the laws of the formulas are
laws of the commands. -/

namespace Sys2Proof.Laws

open Sys2Proof Sys2Proof.Machine

/-! From `ZMod p` back to least remainders -/

section Remainders

variable {p v : Nat}

theorem cast_eq_emod_of_cast_eq {x : Int} (hv : v < p) (h : (v : ZMod p) = x) : (v : Int) = x % p := by
  rw [← (ZMod.intCast_eq_intCast_iff' v x p).1 (by rw [Int.cast_natCast, h]), ← Int.natCast_mod, Nat.mod_eq_of_lt hv]

theorem eq_of_cast_eq {x : Nat} (hv : v < p) (hx : x < p) (h : (v : ZMod p) = x) : v = x := by
  rw [← Nat.mod_eq_of_lt hv, (ZMod.natCast_eq_natCast_iff' v x p).1 h, Nat.mod_eq_of_lt hx]

theorem cast_mul_eq_one {a b p : Nat} (hp : 2 ≤ p) (h : a * b % p = 1) : (a : ZMod p) * b = 1 := by
  have hmod : a * b % p = 1 % p := by rw [h, Nat.mod_eq_of_lt hp]
  simpa using (ZMod.natCast_eq_natCast_iff' _ _ _).2 hmod

variable (p) (n psi psiInv nInv : Nat) (a b : Nat → Nat)

/-- The formula of `NTTFWD` as the statements write it (R167). -/
theorem cast_forwardSum (j : Nat) :
    (((∑ i ∈ Finset.range n, a i * psi ^ (i * (2 * j + 1))) % p : Nat) : ZMod p) =
      forwardTransform (psi : ZMod p) n (fun i => (a i : ZMod p)) j := by
  rw [ZMod.natCast_mod]
  push_cast
  rfl

/-- The formula of `NTTINV` as the statements write it (R169). -/
theorem cast_inverseSum (i : Nat) :
    ((nInv * psiInv ^ i * (∑ j ∈ Finset.range n, a j * psiInv ^ (2 * i * j)) % p : Nat) : ZMod p) =
      inverseTransform (nInv : ZMod p) (psiInv : ZMod p) n (fun j => (a j : ZMod p)) i := by
  rw [ZMod.natCast_mod]
  push_cast
  rfl

/-- The negacyclic product as the statements write it (00_scope.md R15). -/
theorem cast_negacyclicSum (k : Nat) :
    (((∑ i ∈ Finset.range n, ∑ j ∈ Finset.range n, if i + j = k then (a i * b j : Int) else 0) -
        (∑ i ∈ Finset.range n, ∑ j ∈ Finset.range n, if i + j = k + n then (a i * b j : Int) else 0) : Int) : ZMod p) =
      negacyclicProduct n (fun i => (a i : ZMod p)) (fun i => (b i : ZMod p)) k := by
  push_cast
  rfl

end Remainders

end Sys2Proof.Laws

namespace Sys2Proof.Machine

open Sys2Proof

/-! What a valid table says in `ZMod p` -/

section Table

variable {s : State}

theorem State.Inv.readsPowers_fwd (h : s.Inv) (tbl : s.status.tblValid = true) :
    Laws.ReadsPowers s.romWord .fwd (2 ^ s.logn) (s.psi : ZMod s.modulus) := by
  intro e (he : e < s.n)
  have word : s.romWord (twiddleIndex .fwd s.n e) = s.psi ^ e % s.modulus := h.ring.rom tbl e (by omega)
  exact (congrArg Nat.cast word).trans (by rw [ZMod.natCast_mod, Nat.cast_pow])

theorem State.Inv.readsPowers_inv (h : s.Inv) (tbl : s.status.tblValid = true) :
    Laws.ReadsPowers s.romWord .inv (2 ^ s.logn) (s.psiInv : ZMod s.modulus) := by
  intro e (he : e < s.n)
  have word : s.romWord (twiddleIndex .inv s.n e) = s.psiInv ^ e % s.modulus := h.ring.romWord_sub tbl (by omega)
  exact (congrArg Nat.cast word).trans (by rw [ZMod.natCast_mod, Nat.cast_pow])

theorem State.Inv.transformRoot (h : s.Inv) (tbl : s.status.tblValid = true) :
    Laws.TransformRoot s.logn (s.psi : ZMod s.modulus) s.psiInv s.nInv := by
  have two_le := (h.ring.prime tbl).two_le
  obtain ⟨-, -, root⟩ := h.ring.root tbl
  have big : 2 < s.modulus := by
    have := Nat.le_of_dvd (by omega) (h.ring.divides tbl)
    have := s.n_pos
    omega
  have : Fact (2 < s.modulus) := ⟨big⟩
  exact ⟨Laws.cast_pow_degree two_le root, Laws.cast_mul_eq_one two_le (h.ring.psiInv tbl).2,
    Laws.cast_mul_eq_one two_le (h.ring.nInv tbl).2, ZMod.neg_one_ne_one⟩

/-- The inverse root is a root too. -/
theorem State.Inv.psiInv_root (h : s.Inv) (tbl : s.status.tblValid = true) :
    (s.psiInv : ZMod s.modulus) ^ 2 ^ s.logn = -1 := by
  have roots := h.transformRoot tbl
  have product : (s.psi * s.psiInv : ZMod s.modulus) ^ 2 ^ s.logn = 1 := by rw [roots.inverse, one_pow]
  rw [mul_pow, roots.root, neg_one_mul] at product
  rw [← product, neg_neg]

theorem State.cast_bufWords_getD (s : State) (b : BufNum) {p : Nat} :
    ∀ i < s.n, (((s.bufWords b).getD i 0 : Nat) : ZMod p) = s.bufWord b i :=
  fun i hi => congrArg Nat.cast (s.bufWords_getD b i hi)

theorem State.Inv.forwardWords_getD (h : s.Inv) (tbl : s.status.tblValid = true) (b : BufNum) {j : Nat} (hj : j < s.n) :
    (forwardWords s.romWord s.logn s.modulus (s.bufWords b)).getD j 0 =
      (∑ i ∈ Finset.range s.n, s.bufWord b i * s.psi ^ (i * (2 * j + 1))) % s.modulus := by
  have hp := (h.ring.prime tbl).pos
  refine Laws.eq_of_cast_eq (getD_lt (Laws.forwardWords_lt hp _ _ _) hp j) (Nat.mod_lt _ hp) ?_
  rw [Laws.cast_forwardSum, Laws.cast_forwardWords hp (h.readsPowers_fwd tbl) (h.transformRoot tbl).root hj]
  exact Laws.forwardTransform_congr _ (State.cast_bufWords_getD s b) j

theorem State.Inv.inverseWords_getD (h : s.Inv) (tbl : s.status.tblValid = true) (b : BufNum) {i : Nat} (hi : i < s.n) :
    (inverseWords s.romWord s.nInv s.logn s.modulus (s.bufWords b)).getD i 0 =
      s.nInv * s.psiInv ^ i * (∑ j ∈ Finset.range s.n, s.bufWord b j * s.psiInv ^ (2 * i * j)) % s.modulus := by
  have hp := (h.ring.prime tbl).pos
  refine Laws.eq_of_cast_eq (getD_lt (Laws.inverseWords_lt hp _ _ _ _) hp i) (Nat.mod_lt _ hp) ?_
  rw [Laws.cast_inverseSum, Laws.cast_inverseWords hp _ (h.readsPowers_inv tbl) (h.psiInv_root tbl) hi]
  exact Laws.inverseTransform_congr _ _ (State.cast_bufWords_getD s b) i

end Table

/-! The two commands -/

/-- The outcomes of a command that checks the table, then its buffer's number and words, and then completes from `u`. -/
theorem transformCommand_outcomes {s u : State} {i : Instr} {b : BufNum}
    (h : exec i s = needTable s (needBound s (s.hasBuf b) (needCanonical s (s.canonBuf b) (finish u 0)))) :
    (s.status.tblValid = false → s.rejects i 9) ∧
    (s.status.tblValid = true → s.params.nbuf ≤ b.toNat → s.rejects i 4) ∧
    (s.status.tblValid = true → b.toNat < s.params.nbuf → (∃ i < s.n, s.modulus ≤ s.bufWord b i) →
      s.rejects i 10) ∧
    (s.status.tblValid = true → b.toNat < s.params.nbuf → (∀ i < s.n, s.bufWord b i < s.modulus) →
      exec i s = .next (u.completed 0)) := by
  refine ⟨fun noTbl => ?_, fun tbl out => ?_, fun tbl hb ⟨i, hi, high⟩ => ?_, fun tbl hb canon => ?_⟩
  · exact State.rejects_of_raise .notConfigured (h.trans (needTable_raises noTbl))
  · exact State.rejects_of_raise .indexOutOfRange
      (h.trans <| (needTable_passes tbl).trans (needBound_raises (State.hasBuf_eq_false out)))
  · exact State.rejects_of_raise .nonCanonical
      (h.trans <| (needTable_passes tbl).trans <| (needBound_passes (State.hasBuf_eq_true hb)).trans <|
        needCanonical_raises (State.canonBuf_eq_false hi high))
  · exact h.trans <| (needTable_passes tbl).trans <| (needBound_passes (State.hasBuf_eq_true hb)).trans <|
      needCanonical_passes (State.canonBuf_eq_true canon)

/-- Settles O50: the checks in their order, then one rewriting of the first `n` words with the values of the formula. -/
theorem nttfwdComputesForwardTransform : Obligations.NttfwdComputesForwardTransform := by
  intro s ra hs
  have shape : exec (.nttfwd ra) s = needTable s (needBound s (s.hasBuf ra) (needCanonical s (s.canonBuf ra)
    (finish (s.setBufWords ra (forwardWords s.romWord s.logn s.modulus (s.bufWords ra))) 0))) := rfl
  obtain ⟨noTable, outOfRange, nonCanonical, writes⟩ := transformCommand_outcomes shape
  refine ⟨Laws.decodeEncodeRoundTrip (.nttfwd ra) rfl, noTable, outOfRange, nonCanonical, fun tbl hra canon => ?_⟩
  exact ⟨_, writes tbl hra canon, s.onlyBuf_setBufWords (hs.shapes.bufs ▸ hra) (Laws.forwardWords_length ..)
    fun j hj => hs.forwardWords_getD tbl ra hj⟩

/-- Settles O51: as O50, with the table's powers of `PSI_INV`. -/
theorem nttinvComputesInverseTransform : Obligations.NttinvComputesInverseTransform := by
  intro s ra hs
  have shape : exec (.nttinv ra) s = needTable s (needBound s (s.hasBuf ra) (needCanonical s (s.canonBuf ra)
    (finish (s.setBufWords ra (inverseWords s.romWord s.nInv s.logn s.modulus (s.bufWords ra))) 0))) := rfl
  obtain ⟨noTable, outOfRange, nonCanonical, writes⟩ := transformCommand_outcomes shape
  refine ⟨Laws.decodeEncodeRoundTrip (.nttinv ra) rfl, noTable, outOfRange, nonCanonical, fun tbl hra canon => ?_⟩
  exact ⟨_, writes tbl hra canon, s.onlyBuf_setBufWords (hs.shapes.bufs ▸ hra) (Laws.inverseWords_length ..)
    fun i hi => hs.inverseWords_getD tbl ra hi⟩

/-! Sequences of commands on whole buffers -/

theorem State.sameCsrs.refl (s : State) : s.sameCsrs s :=
  ⟨rfl, rfl, rfl, rfl, rfl, rfl, rfl, rfl, fun _ => rfl, fun _ => rfl⟩

theorem State.sameCsrs.trans {s t u : State} (h : s.sameCsrs t) (g : t.sameCsrs u) : s.sameCsrs u where
  params := g.params.trans h.params
  modulus := g.modulus.trans h.modulus
  logn := g.logn.trans h.logn
  psi := g.psi.trans h.psi
  psiInv := g.psiInv.trans h.psiInv
  nInv := g.nInv.trans h.nInv
  k := g.k.trans h.k
  bigM := g.bigM.trans h.bigM
  limb i := (g.limb i).trans (h.limb i)
  crte i := (g.crte i).trans (h.crte i)

theorem State.sameCsrs.n {s t : State} (h : s.sameCsrs t) : t.n = s.n := congrArg (2 ^ ·) h.logn

/-- The state `t` has the valid table of `s`, and canonical words in buffer `b`: a transform of the buffer succeeds. -/
structure State.BufReady (s t : State) (b : BufNum) : Prop where
  csrs : s.sameCsrs t
  inv : t.Inv
  tbl : t.status.tblValid = true
  bound : b.toNat < t.params.nbuf
  canon : ∀ i < s.n, t.bufWord b i < s.modulus

namespace State.BufReady

variable {s t u : State} {a b q : BufNum} {i : Instr} {v : Nat → Nat}

theorem refl (hs : s.Inv) (tbl : s.status.tblValid = true) (bound : b.toNat < s.params.nbuf)
    (canon : ∀ i < s.n, s.bufWord b i < s.modulus) : s.BufReady s b :=
  ⟨.refl s, hs, tbl, bound, canon⟩

/-- A command that leaves canonical words in a buffer keeps every ready buffer ready. -/
theorem next (h : s.BufReady t q) (hexec : exec i t = .next u) (hu : t.onlyBuf u b (fun i => i < s.n) v)
    (hv : ∀ i < s.n, v i < s.modulus) : s.BufReady u q where
  csrs := h.csrs.trans hu.csrs
  inv := (exec_inv h.inv.dataOk hexec).2
  tbl := hu.valid.2.1.trans h.tbl
  bound := hu.csrs.params ▸ h.bound
  canon i hi := by
    by_cases hq : q = b
    · rw [hq, hu.value i hi]
      exact hv i hi
    · rw [hu.otherBufs q hq i]
      exact h.canon i hi

theorem modulus_pos (h : s.BufReady t b) : 0 < s.modulus :=
  h.csrs.modulus ▸ (h.inv.ring.prime h.tbl).pos

theorem nttfwd (h : s.BufReady t b) : ∃ u, exec (.nttfwd b) t = .next u ∧ t.onlyBuf u b (fun j => j < s.n)
    (fun j => (∑ i ∈ Finset.range s.n, t.bufWord b i * s.psi ^ (i * (2 * j + 1))) % s.modulus) := by
  obtain ⟨-, -, -, -, succeeds⟩ := nttfwdComputesForwardTransform t b h.inv
  rw [h.csrs.n, h.csrs.modulus, h.csrs.psi] at succeeds
  exact succeeds h.tbl h.bound h.canon

theorem nttinv (h : s.BufReady t b) : ∃ u, exec (.nttinv b) t = .next u ∧ t.onlyBuf u b (fun i => i < s.n)
    (fun i => s.nInv * s.psiInv ^ i *
      (∑ j ∈ Finset.range s.n, t.bufWord b j * s.psiInv ^ (2 * i * j)) % s.modulus) := by
  obtain ⟨-, -, -, -, succeeds⟩ := nttinvComputesInverseTransform t b h.inv
  rw [h.csrs.n, h.csrs.modulus, h.csrs.psiInv, h.csrs.nInv] at succeeds
  exact succeeds h.tbl h.bound h.canon

theorem pwmul (ha : s.BufReady t a) (hb : s.BufReady t b) : ∃ u, exec (.pwmul a b) t = .next u ∧
    t.onlyBuf u a (fun i => i < s.n) (fun i => t.bufWord a i * t.bufWord b i % s.modulus) := by
  obtain ⟨-, -, -, -, succeeds⟩ := pwmulIsPointwiseProduct t a b ha.inv.shapes.bufs
  rw [ha.csrs.n, ha.csrs.modulus] at succeeds
  exact succeeds (ha.inv.dataOk.ctxValid ha.tbl) ha.bound hb.bound fun i hi => ⟨ha.canon i hi, hb.canon i hi⟩

end State.BufReady

/-- Two rewritings of one buffer that end in the words it held change no memory. -/
theorem State.sameMemory_of_onlyBuf {s t u : State} {b : BufNum} {w : Nat → Prop} {v v' : Nat → Nat}
    (ht : s.onlyBuf t b w v) (hu : t.onlyBuf u b w v') (back : ∀ i, w i → v' i = s.bufWord b i) : s.sameMemory u where
  bufs q i := by
    by_cases hq : q = b
    · subst hq
      by_cases hi : w i
      · rw [hu.value i hi, back i hi]
      · rw [hu.sameBuf i hi, ht.sameBuf i hi]
    · rw [hu.otherBufs q hq i, ht.otherBufs q hq i]
  rom j := (hu.rom j).trans (ht.rom j)

/-- Settles O52: each command finds its buffer ready, and the second formula undoes the first. -/
theorem transformsRoundTrip : Obligations.TransformsRoundTrip := by
  intro s ra hs tbl hra canon
  have ready := State.BufReady.refl hs tbl hra canon
  have hp := ready.modulus_pos
  have roots := hs.transformRoot tbl
  have : Fact s.modulus.Prime := ⟨hs.ring.prime tbl⟩
  constructor
  · obtain ⟨t, ht, forward⟩ := ready.nttfwd
    obtain ⟨u, hu, inverse⟩ := (ready.next ht forward fun _ _ => Nat.mod_lt _ hp).nttinv
    refine ⟨t, u, ht, forward.succeeded.ended.err, hu, inverse.succeeded.ended.err,
      State.sameMemory_of_onlyBuf forward inverse fun i hi => Laws.eq_of_cast_eq (Nat.mod_lt _ hp) (canon i hi) ?_⟩
    have values (j : Nat) (hj : j < s.n) := (congrArg Nat.cast (forward.value j hj)).trans (Laws.cast_forwardSum ..)
    rw [Laws.cast_inverseSum, Laws.inverseTransform_congr _ _ values]
    exact roots.inverse_forward hi
  · obtain ⟨t, ht, inverse⟩ := ready.nttinv
    obtain ⟨u, hu, forward⟩ := (ready.next ht inverse fun _ _ => Nat.mod_lt _ hp).nttfwd
    refine ⟨t, u, ht, inverse.succeeded.ended.err, hu, forward.succeeded.ended.err,
      State.sameMemory_of_onlyBuf inverse forward fun j hj => Laws.eq_of_cast_eq (Nat.mod_lt _ hp) (canon j hj) ?_⟩
    have values (i : Nat) (hi : i < s.n) := (congrArg Nat.cast (inverse.value i hi)).trans (Laws.cast_inverseSum ..)
    rw [Laws.cast_forwardSum, Laws.forwardTransform_congr _ values]
    exact roots.forward_inverse hj

/-- Settles O53: the first buffer holds the inverse transform of the product of the two forward transforms, which is the
forward transform of the negacyclic product. -/
theorem productLaw : Obligations.ProductLaw := by
  intro s ra rb hs tbl ne hra hrb canon
  have readyA := State.BufReady.refl hs tbl hra fun i hi => (canon i hi).1
  have readyB := State.BufReady.refl hs tbl hrb fun i hi => (canon i hi).2
  have hp := readyA.modulus_pos
  have roots := hs.transformRoot tbl
  have : Fact s.modulus.Prime := ⟨hs.ring.prime tbl⟩
  have canonical {f : Nat → Nat} : ∀ i < s.n, f i % s.modulus < s.modulus := fun _ _ => Nat.mod_lt _ hp
  obtain ⟨t1, h1, forwardA⟩ := readyA.nttfwd
  have readyA1 := readyA.next h1 forwardA canonical
  have readyB1 := readyB.next h1 forwardA canonical
  obtain ⟨t2, h2, forwardB⟩ := readyB1.nttfwd
  have readyA2 := readyA1.next h2 forwardB canonical
  have readyB2 := readyB1.next h2 forwardB canonical
  obtain ⟨t3, h3, pointwise⟩ := readyA2.pwmul readyB2
  obtain ⟨t4, h4, inverse⟩ := (readyA2.next h3 pointwise canonical).nttinv
  have wordsB (j : Nat) (hj : j < s.n) : t2.bufWord rb j =
      (∑ i ∈ Finset.range s.n, s.bufWord rb i * s.psi ^ (i * (2 * j + 1))) % s.modulus := by
    simp only [forwardB.value j hj, forwardA.otherBufs rb ne.symm]
  refine ⟨t1, t2, t3, t4, h1, forwardA.succeeded.ended.err, h2, forwardB.succeeded.ended.err, h3,
    pointwise.succeeded.ended.err, h4, inverse.succeeded.ended.err, fun k hk => ?_, fun j hj => ?_⟩
  · have values (j : Nat) (hj : j < s.n) : (t3.bufWord ra j : ZMod s.modulus) =
        Laws.forwardTransform (s.psi : ZMod s.modulus) s.n
          (Laws.negacyclicProduct s.n (fun i => (s.bufWord ra i : ZMod s.modulus)) fun i => s.bufWord rb i) j := by
      rw [pointwise.value j hj, ZMod.natCast_mod, Nat.cast_mul, forwardB.otherBufs ra ne, forwardA.value j hj,
        wordsB j hj, Laws.cast_forwardSum, Laws.cast_forwardSum]
      exact (Laws.forwardTransform_negacyclicProduct roots.root _ _ j).symm
    rw [inverse.value k hk]
    refine Laws.cast_eq_emod_of_cast_eq (Nat.mod_lt _ hp) ?_
    rw [Laws.cast_inverseSum, Laws.inverseTransform_congr _ _ values, Laws.cast_negacyclicSum]
    exact roots.inverse_forward hk
  · rw [inverse.otherBufs rb ne.symm, pointwise.otherBufs rb ne.symm, wordsB j hj]

end Sys2Proof.Machine
end

section
/-! PROOF. How commands end (60_exceptions.md R200 to R215): an error changes nothing but `STATUS.ERR`, `STATUS.STICKY`
and the responses, a success is an effect followed by the completion update, and a check that failed fails again. -/

namespace Sys2Proof.Machine

open Sys2Proof

/-- Settles O15: `STATUS.ERR` and `STATUS.STICKY` of the invariant, which `step_inv` keeps whole; that `TBUILD` never
ends with code 2 is `psiSelect_ne_none`. -/
theorem stepKeepsStatusCodes : Obligations.StepKeepsStatusCodes :=
  fun _ _ hs h => (step_inv hs h).2.status

/-! The two ends of a command, told apart by `STATUS.ERR` -/

section Ends

variable {i : Instr} {s t : State}

theorem exec_of_failure (h : exec i s = .next t) (failure : t.status.err ≠ 0) :
    ∃ e ∈ i.errors, t = s.raised e := by
  rcases exec_next_cases h with ⟨e, he, -, rfl⟩ | ⟨u, v, -, rfl⟩
  · exact ⟨e, he, rfl⟩
  · exact absurd rfl failure

theorem exec_of_success (h : exec i s = .next t) (success : t.status.err = 0) :
    ∃ u v, s.Effect i u v ∧ t = u.completed v := by
  rcases exec_next_cases h with ⟨e, -, -, rfl⟩ | effect
  · exact absurd success e.code_ne_zero
  · exact effect

/-- Every command answers a next state with the same parameters. -/
theorem exec_answers (i : Instr) (s : State) : ∃ t, exec i s = .next t ∧ t.params = s.params := by
  rcases exec_ends i s with ⟨e, -, -, h⟩ | ⟨u, v, hu, h⟩
  · exact ⟨_, h, rfl⟩
  · exact ⟨_, h, hu.params_eq⟩

end Ends

/-- Settles O7: the block idles, takes a reset, runs a command or answers an illegal word. -/
theorem everyStepAnswers : Obligations.EveryStepAnswers := by
  intro s legal
  cases pending : s.pending with
  | nil => exact ⟨s, step_of_idle legal pending, rfl⟩
  | cons event rest =>
    cases event with
    | reset => exact ⟨_, step_of_reset legal pending, rfl⟩
    | command cmd d =>
      cases decoded : decode cmd with
      | ok i =>
        obtain ⟨t, ht, params⟩ := exec_answers i (s.issue d rest)
        exact ⟨t, (step_of_decode_ok legal pending decoded).trans ht, params⟩
      | error e => exact ⟨_, step_of_decode_error legal pending decoded, rfl⟩

/-- Settles O17: the only end with a code that is not 0 is `raise`. -/
theorem failedCommandChangesNothing : Obligations.FailedCommandChangesNothing := by
  intro i s t h failure
  obtain ⟨e, -, rfl⟩ := exec_of_failure h failure
  exact ⟨s.rejected_raised e, rfl⟩

/-- Settles O19: an error raised is one of the command's row, and a success has code 0. -/
theorem codesEachCommandCanReport : Obligations.CodesEachCommandCanReport := by
  intro i s t h
  by_cases success : t.status.err = 0
  · exact .inl success
  · obtain ⟨e, he, rfl⟩ := exec_of_failure h success
    exact .inr ⟨e, he, rfl⟩

/-! What an effect leaves for the completion update -/

section Completion

variable {s u : State} {i : Instr} {v : Nat}

/-- No effect touches the transaction interface (00_scope.md R8, R19). -/
theorem State.Effect.interface_eq (h : s.Effect i u v) :
    u.responses = s.responses ∧ u.pending = s.pending ∧ u.wdata = s.wdata ∧ u.resets = s.resets := by
  cases h <;> exact ⟨rfl, rfl, rfl, rfl⟩

/-- Only the two commands that read a register for the host respond a datum (60_exceptions.md R211). -/
theorem State.Effect.rdata_eq_zero (h : s.Effect i u v) (getr : ∀ ra, i ≠ .getr ra) (getc : ∀ imm, i ≠ .getc imm) :
    v = 0 := by
  cases h with
  | getr ra => exact absurd rfl (getr ra)
  | getc => exact absurd rfl (getc _)
  | _ => rfl

/-- `GETC STATUS` reads the register before the completion update; it has 8 bits (10_state.md R31). -/
theorem State.Effect.rdata_getc_status (h : s.Effect (.getc 0) u v) (wide : 8 ≤ s.params.wm) :
    v = s.status.word.toNat := by
  cases h with
  | getc read =>
    obtain rfl : s.status.word.toNat = _ := Option.some.inj read
    exact State.fit_eq (s.status.word.isLt.trans_le (Nat.pow_le_pow_right two_pos wide))

/-- `CLRERR` alone writes `STICKY` (40_context_and_data.md R110). -/
theorem State.Effect.sticky_eq (h : s.Effect i u v) :
    u.status.sticky = if i = .clrerr then false else s.status.sticky := by
  cases h <;> rfl

end Completion

/-- Settles O18: what the effect left alone, then the completion update. -/
theorem succeedingCommandCompletes : Obligations.SucceedingCommandCompletes := by
  intro i s t h success
  obtain ⟨u, v, hu, rfl⟩ := exec_of_success h success
  obtain ⟨responses, pending, wdata, resets⟩ := hu.interface_eq
  refine ⟨⟨v, ⟨rfl, congrArg (· ++ [(⟨0, v⟩ : Response)]) responses, pending, wdata, resets⟩, hu.rdata_eq_zero, ?_⟩,
    hu.sticky_eq⟩
  rintro rfl
  exact hu.rdata_getc_status

/-! A command issued again: no check reads what an error changes (60_exceptions.md R212) -/

/-- Where the first outcome is an error, the second is one with the same code. -/
def FailsAlike (o o' : Out) : Prop :=
  ∀ t, o = .next t → t.status.err ≠ 0 → ∃ u, o' = .next u ∧ u.status.err = t.status.err

section FailsAlike

variable {s s' : State} {body body' : Out}

theorem finish_failsAlike {u : State} {v : Nat} {o : Out} : FailsAlike (finish u v) o := by
  rintro t h failure
  obtain rfl := (finish_next u t v).1 h
  exact absurd rfl failure

theorem raise_failsAlike {e : Err} : FailsAlike (raise s e) (raise s' e) := by
  rintro t h -
  obtain rfl := (raise_next s t e).1 h
  exact ⟨_, rfl, rfl⟩

/-- A check both states answer alike, and that raises `e` where it holds. -/
theorem ite_raise_failsAlike {c : Prop} [Decidable c] {e : Err} (hb : FailsAlike body body') :
    FailsAlike (if c then raise s e else body) (if c then raise s' e else body') := by
  split
  · exact raise_failsAlike
  · exact hb

/-- A check both states answer alike, and that raises `e` where it fails. -/
theorem ite_body_failsAlike {ok : Bool} {e : Err} (hb : FailsAlike body body') :
    FailsAlike (if ok then body else raise s e) (if ok then body' else raise s' e) := by
  split
  · exact hb
  · exact raise_failsAlike

end FailsAlike

/-- `STATUS` is the only control register an error changes. -/
theorem State.csr_raised (s : State) (e : Err) {num : Nat} (h : num ≠ 0) : (s.raised e).csr num = s.csr num := by
  rw [State.csr, State.csr, if_neg h, if_neg h]
  rfl

theorem execGetc_failsAlike (imm : Imm16) (s : State) (e : Err) :
    FailsAlike (execGetc imm s) (execGetc imm (s.raised e)) := by
  cases read : s.csr imm.toNat with
  | none =>
    have notStatus : imm.toNat ≠ 0 := fun status => by simp [State.csr, status] at read
    rw [execGetc, execGetc, s.csr_raised e notStatus, read]
    exact raise_failsAlike
  | some v =>
    rw [execGetc, read]
    exact finish_failsAlike

theorem execTbuild_failsAlike (s : State) (e : Err) : FailsAlike (execTbuild s) (execTbuild (s.raised e)) := by
  refine ite_body_failsAlike (ite_raise_failsAlike (ite_raise_failsAlike ?_))
  have root : psiSelect (s.raised e).params (s.raised e).n (s.raised e).modulus =
      psiSelect s.params s.n s.modulus := rfl
  rw [root]
  cases psiSelect s.params s.n s.modulus with
  | none => exact raise_failsAlike
  | some psi => exact finish_failsAlike

/-- The checks of every command read none of `STATUS.ERR`, `STATUS.STICKY` and the responses. -/
theorem exec_failsAlike (i : Instr) (s : State) (e : Err) : FailsAlike (exec i s) (exec i (s.raised e)) := by
  cases i with
  | nop | setr | getr | mov | clrerr => exact finish_failsAlike
  | getc imm => exact execGetc_failsAlike imm s e
  | tbuild => exact execTbuild_failsAlike s e
  -- one check
  | gett | decomp => exact ite_body_failsAlike finish_failsAlike
  -- two checks
  | setctx => exact ite_raise_failsAlike (ite_raise_failsAlike finish_failsAlike)
  | setlimb => exact ite_body_failsAlike (ite_raise_failsAlike finish_failsAlike)
  | ldc | sett | add | sub | neg | mul | pow | twd | brev | brperm | compose =>
    exact ite_body_failsAlike (ite_body_failsAlike finish_failsAlike)
  -- three checks
  | stc | pwmul | nttfwd | nttinv =>
    exact ite_body_failsAlike (ite_body_failsAlike (ite_body_failsAlike finish_failsAlike))
  | inv | rescale => exact ite_body_failsAlike (ite_body_failsAlike (ite_raise_failsAlike finish_failsAlike))
  | bfly => exact ite_raise_failsAlike (ite_body_failsAlike (ite_body_failsAlike finish_failsAlike))
  | crtbuild => exact ite_raise_failsAlike (ite_raise_failsAlike (ite_raise_failsAlike finish_failsAlike))

/-- Settles O21: the state left is the old one with an error raised, where every check gives the same answer. -/
theorem failedCommandFailsAgain : Obligations.FailedCommandFailsAgain := by
  intro i s t h failure
  obtain ⟨e, -, rfl⟩ := exec_of_failure h failure
  exact exec_failsAlike i s e _ h failure

end Sys2Proof.Machine
end

section
/-! PROOF. Reset and the commands right after it (70_reset_and_hazards.md R230, R232). -/

namespace Sys2Proof.Machine

open Sys2Proof

/-- Settles O8: the registers of `hostReset` are those of the reset state. -/
theorem hostResetZeroesRegisters : Obligations.HostResetZeroesRegisters :=
  fun s _ legal pending =>
    ⟨_, step_of_reset legal pending, { State.resetOf_isReset s.params with }, rfl, rfl, rfl⟩

section AfterReset

variable {P : Params} {i : Instr} {s t : State}

/-- After reset the valid flag every such command needs is clear, and it is the first thing checked. -/
theorem exec_resetOf_of_needsConfiguration (needs : i.needsConfiguration = true) (wellFormed : i.wellFormed = true) :
    exec i (State.resetOf P) = raise (State.resetOf P) .notConfigured := by
  cases i with
  | bfly ra rb rc =>
    have distinct : ra ≠ rb := by simpa [Instr.wellFormed] using wellFormed
    exact if_neg distinct
  | nop | setr | getr | mov | getc | setctx | sett | gett | clrerr | setlimb | crtbuild => cases needs
  | _ => rfl

theorem err_ne_nine_of_not_needsConfiguration (free : i.needsConfiguration = false) (h : exec i s = .next t) :
    t.status.err ≠ 9 := by
  rcases codesEachCommandCanReport i s t h with success | ⟨e, he, code⟩
  · rw [success]
    decide
  · rw [code]
    intro nine
    obtain rfl : e = .notConfigured := by revert nine; cases e <;> decide
    simp [Instr.needsConfiguration, he] at free

/-- A limb that was never set rules out a successful `CRTBUILD`, whose only error is `InvalidModulus`. -/
theorem exec_crtbuild_resetOf {imm : Imm16} (h : exec (.crtbuild imm) (State.resetOf P) = .next t) :
    t.status.err = 1 := by
  rcases exec_next_cases h with ⟨e, he, -, rfl⟩ | ⟨u, v, hu, -⟩
  · obtain rfl := List.mem_singleton.1 he
    rfl
  · cases hu with
    | crtbuild pos bound limbs =>
      have := limbs 0 pos
      simp at this

end AfterReset

/-- Settles O10: the list of R232 is the commands whose row of R201 has no `NotConfigured`. -/
theorem commandsRightAfterReset : Obligations.CommandsRightAfterReset := by
  intro P i _ wellFormed
  obtain ⟨t, ht, -⟩ := exec_answers i (State.resetOf P)
  have nine : t.status.err = 9 ↔ i.needsConfiguration = true := by
    refine ⟨fun code => ?_, fun needs => ?_⟩
    · by_contra free
      exact err_ne_nine_of_not_needsConfiguration (Bool.eq_false_iff.2 free) ht code
    · obtain rfl := (raise_next _ _ _).1 ((exec_resetOf_of_needsConfiguration needs wellFormed).symm.trans ht)
      rfl
  refine ⟨t, ht, nine.trans ?_, ?_⟩
  · cases i <;> simp [Instr.needsConfiguration, Instr.errors]
  · rintro imm rfl
    exact exec_crtbuild_resetOf ht

end Sys2Proof.Machine
end

section
/-! PROOF. The arithmetic of a system of pairwise coprime limbs `f 0, .., f (k-1)`: a value below a product of limbs is
fixed by its residues (47_crt_reconstructor.md R175, R179), a product of limbs is divided by its own limbs only
(48_rns_composer.md R188), and what rounding to a multiple leaves (R189). -/

namespace Sys2Proof.Laws

open Sys2Proof Sys2Proof.Machine

section Residues

variable {f e t : Nat → Nat} {k i u v : Nat} {I : Finset Nat}

theorem pairwise_coprime_map_range (h : ∀ i j, i < j → j < k → (f i).Coprime (f j)) :
    ((List.range k).map f).Pairwise Nat.Coprime :=
  List.pairwise_map.2 <| List.pairwise_lt_range.imp_of_mem fun {i j} _ hj hij => h i j hij (List.mem_range.1 hj)

/-- The coefficients pick one entry out of the sum: modulo limb `i` all but the `i`-th vanish. -/
theorem sum_mul_coefficient_mod (own : ∀ i < k, e i % f i = 1) (other : ∀ i < k, ∀ j < k, i ≠ j → e i % f j = 0)
    (hi : i < k) : (∑ j ∈ Finset.range k, t j * e j) % f i = t i % f i := by
  have hown : (e i : ZMod (f i)) = 1 := by
    rw [← ZMod.natCast_mod, own i hi, Nat.cast_one]
  have hother (j : Nat) (hj : j ∈ Finset.range k) (hne : j ≠ i) : (t j * e j : ZMod (f i)) = 0 := by
    rw [← ZMod.natCast_mod (e j), other j (Finset.mem_range.1 hj) i hi hne, Nat.cast_zero, mul_zero]
  rw [← Nat.ModEq, ← ZMod.natCast_eq_natCast_iff, Nat.cast_sum]
  simp only [Nat.cast_mul]
  rw [Finset.sum_eq_single_of_mem i (Finset.mem_range.2 hi) hother, hown, mul_one]

variable (hf : ∀ i < k, 2 ≤ f i) (hco : ∀ i < k, ∀ j < k, i ≠ j → (f i).Coprime (f j)) (hI : I ⊆ Finset.range k)

include hco hI in
/-- Of the values below a product of limbs no two have the same residues. -/
theorem eq_of_residues_eq (hu : u < ∏ i ∈ I, f i) (hv : v < ∏ i ∈ I, f i) (h : ∀ i ∈ I, u % f i = v % f i) :
    u = v := by
  have divides : ((∏ i ∈ I, f i : Nat) : Int) ∣ v - u := by
    rw [Nat.cast_prod]
    exact Finset.prod_dvd_of_coprime
      (fun i hi j hj hne => Nat.isCoprime_iff_coprime.2
        (hco i (Finset.mem_range.1 (hI hi)) j (Finset.mem_range.1 (hI hj)) hne))
      fun i hi => Nat.modEq_iff_dvd.1 (h i hi)
  exact (Nat.modEq_iff_dvd.2 divides).eq_of_lt_of_lt hu hv

include hf hI in
theorem prod_subset_pos : 0 < ∏ i ∈ I, f i :=
  Finset.prod_pos fun i hi => by have := hf i (Finset.mem_range.1 (hI hi)); omega

include hf hI in
theorem prod_range_div_prod : (∏ i ∈ Finset.range k, f i) / ∏ i ∈ I, f i = ∏ i ∈ Finset.range k \ I, f i := by
  rw [← Finset.prod_sdiff hI, Nat.mul_div_cancel _ (prod_subset_pos hf hI)]

/-- A limb is kept where it divides a target that is not 0 (48_rns_composer.md R188). -/
theorem keptLimb_iff {target m : Nat} : keptLimb target m = true ↔ target ≠ 0 ∧ m ∣ target := by
  simp [keptLimb, Nat.dvd_iff_mod_eq_zero]

include hf hco hI in
/-- Of a target that is a product of limbs the limbs kept are its own factors. -/
theorem keptLimb_prod_iff (hi : i < k) : keptLimb (∏ j ∈ I, f j) (f i) = true ↔ i ∈ I := by
  rw [keptLimb_iff]
  refine ⟨fun ⟨_, divides⟩ => ?_, fun mem => ⟨(prod_subset_pos hf hI).ne', Finset.dvd_prod_of_mem f mem⟩⟩
  by_contra notMem
  have coprime : (f i).Coprime (∏ j ∈ I, f j) := Nat.Coprime.prod_right fun j hj =>
    hco i hi j (Finset.mem_range.1 (hI hj)) fun same => notMem (same ▸ hj)
  have one := Nat.Coprime.eq_one_of_dvd coprime divides
  have := hf i hi
  omega

theorem keptProduct_eq_prod (f : Nat → Nat) (k target : Nat) : keptProduct target ((List.range k).map f) =
    ∏ i ∈ Finset.range k with keptLimb target (f i) = true, f i := by
  have filter : keptLimb target ∘ f = fun i => decide (keptLimb target (f i) = true) :=
    funext fun _ => Bool.decide_eq_true.symm
  rw [keptProduct, product_eq, List.filter_map, filter]
  rfl

include hf hco in
/-- The two checks of `RESCALE` on its target ask for a product of a non-empty set of limbs. -/
theorem keptProduct_eq_iff {target : Nat} :
    ((∃ m ∈ (List.range k).map f, keptLimb target m = true) ∧ keptProduct target ((List.range k).map f) = target) ↔
      ∃ I ⊆ Finset.range k, I.Nonempty ∧ ∏ i ∈ I, f i = target := by
  rw [keptProduct_eq_prod]
  constructor
  · rintro ⟨⟨m, hm, kept⟩, target⟩
    obtain ⟨i, hi, rfl⟩ := List.mem_map.1 hm
    exact ⟨_, Finset.filter_subset _ _, ⟨i, Finset.mem_filter.2 ⟨Finset.mem_range.2 (List.mem_range.1 hi), kept⟩⟩,
      target⟩
  · rintro ⟨I, hI, ⟨i, hi⟩, rfl⟩
    have lt := Finset.mem_range.1 (hI hi)
    have kept : {i ∈ Finset.range k | keptLimb (∏ j ∈ I, f j) (f i) = true} = I := by
      ext j
      rw [Finset.mem_filter]
      exact ⟨fun ⟨hj, h⟩ => (keptLimb_prod_iff hf hco hI (Finset.mem_range.1 hj)).1 h,
        fun hj => ⟨hI hj, (keptLimb_prod_iff hf hco hI (Finset.mem_range.1 (hI hj))).2 hj⟩⟩
    exact ⟨⟨f i, List.mem_map.2 ⟨i, List.mem_range.2 lt, rfl⟩, (keptLimb_prod_iff hf hco hI lt).2 hi⟩, by rw [kept]⟩

end Residues

/-- What `crt_e` calls an inverse is one: the coefficient is 1 modulo its limb. -/
theorem quotient_mul_modinv_mod {f : Nat → Nat} {k i : Nat} (hf : ∀ i < k, 2 ≤ f i)
    (hco : ∀ i < k, ∀ j < k, i ≠ j → (f i).Coprime (f j)) (hi : i < k) :
    (∏ j ∈ Finset.range k, f j) / f i % f i * modinv ((∏ j ∈ Finset.range k, f j) / f i % f i) (f i) % f i = 1 := by
  have own := crtE_mod_own hf hco hi
  rwa [crtE, Nat.mod_mod_of_dvd _ (Finset.dvd_prod_of_mem f (Finset.mem_range.2 hi)), ← Nat.mod_mul_mod] at own

/-! Rounding to the nearest multiple of `d`, ties up (00_scope.md R17) -/

section Rounding

variable {v d target : Nat}

theorem rounding_error (hd : 0 < d) : (-(d / 2 : Nat) : Int) ≤ v - ((v + d / 2) / d : Nat) * (d : Nat) ∧
    (v : Int) - ((v + d / 2) / d : Nat) * (d : Nat) ≤ ((d - 1) / 2 : Nat) := by
  have division := Nat.div_add_mod' (v + d / 2) d
  have remainder := Nat.mod_lt (v + d / 2) hd
  rw [← Nat.cast_mul]
  omega

theorem rounded_le (hv : v < target * d) : (v + d / 2) / d ≤ target := by
  have hd : 0 < d := Nat.pos_of_mul_pos_left (Nat.zero_lt_of_lt hv)
  rw [← Nat.lt_succ_iff, Nat.div_lt_iff_lt_mul hd, Nat.succ_mul]
  omega

theorem le_of_rounded_eq (h : (v + d / 2) / d = target) : target * d - d / 2 ≤ v := by
  have := Nat.div_mul_le_self (v + d / 2) d
  rw [h] at this
  omega

end Rounding

end Sys2Proof.Laws
end

section
/-! PROOF. The CRT commands: `SETLIMB`, `CRTBUILD`, `COMPOSE` (47_crt_reconstructor.md R176, R177, R179), `DECOMP`,
`RESCALE` (48_rns_composer.md R186, R188), and the laws of R180 and R189. -/

namespace Sys2Proof.Machine

open Sys2Proof

/-! The checks and the writes of these commands -/

section Checks

variable {s : State} {body : Out} {ra rb : RegNum} {imm : Imm16}

theorem needCrt_raises (h : s.status.crtValid = false) : needCrt s body = raise s .notConfigured := by
  rw [needCrt, h]
  rfl

theorem needCrt_passes (h : s.status.crtValid = true) : needCrt s body = body := if_pos h

theorem State.canonTuple_eq_true (h : ∀ i < s.k, s.getT i < s.getLimb i) : s.canonTuple = true :=
  s.canonTuple_iff.2 h

theorem State.canonTuple_eq_false (h : ∃ i < s.k, s.getLimb i ≤ s.getT i) : s.canonTuple = false := by
  obtain ⟨i, hi, high⟩ := h
  exact Bool.eq_false_iff.2 fun canon => not_lt.2 high (s.canonTuple_iff.1 canon i hi)

theorem exec_setlimb_of_bound (bound : imm.toNat < s.params.kmax) :
    exec (.setlimb ra imm) s =
      if s.getX ra < 2 ∨ 2 ^ s.params.w ≤ s.getX ra then raise s .invalidModulus
      else finish (s.setLimb imm.toNat (s.getX ra)) 0 :=
  needBound_passes (decide_eq_true bound)

/-- A count from 1 to `KMAX` leaves `CRTBUILD` with its checks of the limbs. -/
theorem exec_crtbuild_of_count (pos : 1 ≤ imm.toNat) (bound : imm.toNat ≤ s.params.kmax) :
    exec (.crtbuild imm) s =
      if (s.firstLimbs imm.toNat).any (fun m => decide (m < 2)) then raise s .invalidModulus
      else if pairwiseCoprime (s.firstLimbs imm.toNat) = false then raise s .invalidModulus
      else finish (s.setCrt imm.toNat (product (s.firstLimbs imm.toNat))
        ((s.firstLimbs imm.toNat).map (crtE (product (s.firstLimbs imm.toNat))))) 0 :=
  if_neg (by omega)

theorem State.firstLimbs_any_iff {k : Nat} :
    (s.firstLimbs k).any (fun m => decide (m < 2)) = true ↔ ∃ i < k, s.getLimb i < 2 := by
  simp [State.firstLimbs]

theorem State.pairwiseCoprime_firstLimbs_iff {k : Nat} :
    pairwiseCoprime (s.firstLimbs k) = true ↔ ∀ i j, i < j → j < k → (s.getLimb i).Coprime (s.getLimb j) := by
  rw [Laws.pairwiseCoprime_iff]
  exact ⟨fun h i j hij hj => Laws.coprime_of_pairwise_map_range h (hij.trans hj) hj hij.ne,
    Laws.pairwise_coprime_map_range⟩

/-- Checked limbs that are all set leave `CRTBUILD` with its check of their coprimality. -/
theorem exec_crtbuild_of_limbs (pos : 1 ≤ imm.toNat) (bound : imm.toNat ≤ s.params.kmax)
    (limbs : ∀ i < imm.toNat, 2 ≤ s.getLimb i) :
    exec (.crtbuild imm) s =
      if pairwiseCoprime (s.firstLimbs imm.toNat) = false then raise s .invalidModulus
      else finish (s.setCrt imm.toNat (product (s.firstLimbs imm.toNat))
        ((s.firstLimbs imm.toNat).map (crtE (product (s.firstLimbs imm.toNat))))) 0 := by
  refine (exec_crtbuild_of_count pos bound).trans (if_neg ?_)
  rw [State.firstLimbs_any_iff]
  rintro ⟨i, hi, small⟩
  exact absurd (limbs i hi) (by omega)

theorem exec_compose_passes (crt : s.status.crtValid = true) (canon : ∀ i < s.k, s.getT i < s.getLimb i) :
    exec (.compose ra) s = finish (s.setX ra s.composed) 0 :=
  (needCrt_passes crt).trans (needCanonical_passes (State.canonTuple_eq_true canon))

end Checks

/-- A command whose one effect is to rewrite the first `n` tuple registers, entry `i` with `v i`. -/
theorem State.onlyTuple_setTuple (s : State) {vs : List Nat} {n : Nat} {v : Nat → Nat} (count : vs.length = n)
    (entries : ∀ i < n, vs.getD i 0 = v i) : s.onlyTuple ((s.setTuple vs).completed 0) (fun i => i < n) v where
  value i hi := by rw [State.completed_getT, State.getT_setTuple, if_pos (count.symm ▸ hi), entries i hi]
  others i hi := by rw [State.completed_getT, State.getT_setTuple, if_neg (count.symm ▸ hi)]
  x := s.setTuple_getX vs
  memory := ⟨s.setTuple_bufWord vs, s.setTuple_romWord vs⟩
  csrs := ⟨rfl, rfl, rfl, rfl, rfl, rfl, rfl, rfl, s.setTuple_getLimb vs, s.setTuple_getCrte vs⟩
  valid := ⟨rfl, rfl, rfl⟩
  succeeded := ⟨⟨rfl, rfl, rfl, rfl, rfl⟩, rfl⟩

/-! `SETLIMB` and `CRTBUILD` -/

/-- Settles O54: the bound, the check of the modulus, then one limb and one flag. -/
theorem setlimbSetsLimb : Obligations.SetlimbSetsLimb := by
  intro s ra imm count
  refine ⟨Laws.decodeEncodeRoundTrip (.setlimb ra imm) rfl, fun out => ?_, fun bound bad => ?_,
    fun bound two_le width => ?_⟩
  · exact State.rejects_of_raise .indexOutOfRange (needBound_raises (decide_eq_false (not_lt.2 out)))
  · exact State.rejects_of_raise .invalidModulus ((exec_setlimb_of_bound bound).trans (if_pos bad))
  · have read := s.getLimb_setLimb imm.toNat (s.getX ra)
    exact ⟨_, (exec_setlimb_of_bound bound).trans (if_neg (not_or.2 ⟨not_lt.2 two_le, not_le.2 width⟩)),
      (read _ (count ▸ bound)).trans (if_pos rfl), fun j hj => (read j (count ▸ bound)).trans (if_neg hj),
      rfl, rfl, rfl, rfl, rfl, rfl, rfl, rfl, rfl, rfl, rfl, fun _ => rfl, fun _ => rfl, fun _ => rfl,
      ⟨fun _ _ => rfl, fun _ => rfl⟩, ⟨⟨rfl, rfl, rfl, rfl, rfl⟩, rfl⟩⟩

/-- Settles O55: the checks in their order; the coefficient of limb `i` is built with the inverse of `BIGM / m_i`. -/
theorem crtbuildBuildsCoefficients : Obligations.CrtbuildBuildsCoefficients := by
  intro s imm
  refine ⟨encodeImm_zero_zero 0x71 imm ▸ Laws.decodeEncodeRoundTrip (.crtbuild imm) rfl, fun count => ?_,
    fun pos bound small => ?_, fun pos bound limbs common => ?_, fun pos bound limbs coprime => ?_⟩
  · exact State.rejects_of_raise .invalidModulus (if_pos count)
  · exact State.rejects_of_raise .invalidModulus
      ((exec_crtbuild_of_count pos bound).trans (if_pos (State.firstLimbs_any_iff.2 small)))
  · obtain ⟨i, j, hij, hj, common⟩ := common
    exact State.rejects_of_raise .invalidModulus ((exec_crtbuild_of_limbs pos bound limbs).trans <|
      if_pos <| Bool.eq_false_iff.2 fun coprime => common (State.pairwiseCoprime_firstLimbs_iff.1 coprime i j hij hj))
  · have hco : ∀ i < imm.toNat, ∀ j < imm.toNat, i ≠ j → (s.getLimb i).Coprime (s.getLimb j) := fun i hi j hj =>
      Laws.coprime_of_pairwise_map_range (Laws.pairwise_coprime_map_range coprime) hi hj
    have checked : ¬ pairwiseCoprime (s.firstLimbs imm.toNat) = false := by
      rw [State.pairwiseCoprime_firstLimbs_iff.2 coprime]
      nofun
    have bigM : product (s.firstLimbs imm.toNat) = ∏ i ∈ Finset.range imm.toNat, s.getLimb i := Laws.product_eq _
    refine ⟨_, (exec_crtbuild_of_limbs pos bound limbs).trans (if_neg checked), rfl, bigM, fun i hi => ?_,
      fun i hi => ?_, fun _ => rfl, rfl, rfl, rfl, rfl, rfl, rfl, rfl, rfl, rfl, fun _ => rfl, fun _ => rfl,
      ⟨fun _ _ => rfl, fun _ => rfl⟩, ⟨⟨rfl, rfl, rfl, rfl, rfl⟩, rfl⟩⟩
    · rw [State.completed_bigM, State.setCrt_bigM, State.completed_getCrte, s.getCrte_setCrt_firstLimbs _ hi, bigM]
      exact ⟨_, Laws.modinv_lt _ _ (by have := limbs i hi; omega), Laws.quotient_mul_modinv_mod limbs hco hi, rfl⟩
    · rw [State.completed_getCrte, State.getCrte_setCrt, if_neg (by simpa [State.firstLimbs] using hi)]

/-! What valid CRT state says of the value of a tuple -/

theorem State.composed_eq_sum (s : State) :
    s.composed = (∑ i ∈ Finset.range s.k, s.getT i * s.getCrte i) % s.bigM := by
  rw [State.composed, Laws.compose_eq, State.tuple, State.crtes, List.zipWith_map, List.zipWith_self]
  rfl

namespace State.DataOk

variable {s : State} {i : Nat}

theorem bigM_eq_prod (h : s.DataOk) (crt : s.status.crtValid = true) :
    s.bigM = ∏ i ∈ Finset.range s.k, s.getLimb i := h.crt.bigM crt

theorem limb_dvd_bigM (h : s.DataOk) (crt : s.status.crtValid = true) (hi : i < s.k) : s.getLimb i ∣ s.bigM :=
  h.bigM_eq_prod crt ▸ Finset.dvd_prod_of_mem s.getLimb (Finset.mem_range.2 hi)

theorem limb_pos (h : s.DataOk) (crt : s.status.crtValid = true) (hi : i < s.k) : 0 < s.getLimb i := by
  have := h.crt.limbs crt i hi
  omega

theorem composed_lt (h : s.DataOk) (crt : s.status.crtValid = true) : s.composed < s.bigM :=
  Nat.mod_lt _ (h.bigM_pos crt)

theorem composed_mod (h : s.DataOk) (crt : s.status.crtValid = true) (hi : i < s.k) :
    s.composed % s.getLimb i = s.getT i % s.getLimb i := by
  rw [s.composed_eq_sum, Nat.mod_mod_of_dvd _ (h.limb_dvd_bigM crt hi)]
  exact Laws.sum_mul_coefficient_mod (h.crt.own crt) (h.crt.other crt) hi

/-- The composed value is the only one below `BIGM` with the tuple's residues (47_crt_reconstructor.md R179). -/
theorem eq_composed (h : s.DataOk) (crt : s.status.crtValid = true) {u : Nat} (hu : u < s.bigM)
    (residues : ∀ i < s.k, u % s.getLimb i = s.getT i % s.getLimb i) : u = s.composed := by
  have hlt := h.composed_lt crt
  rw [h.bigM_eq_prod crt] at hu hlt
  refine Laws.eq_of_residues_eq (h.crt.coprime crt) subset_rfl hu hlt fun i hi => ?_
  have hi := Finset.mem_range.1 hi
  rw [residues i hi, h.composed_mod crt hi]

end State.DataOk

/-! `COMPOSE` and `DECOMP` -/

/-- Settles O56: the checks in their order, then one register write of the value the residues fix. -/
theorem composeReconstructsValue : Obligations.ComposeReconstructsValue := by
  intro s ra hs
  refine ⟨Laws.decodeEncodeRoundTrip (.compose ra) rfl, fun noCrt => ?_, fun crt high => ?_, fun crt canon => ?_⟩
  · exact State.rejects_of_raise .notConfigured (needCrt_raises noCrt)
  · exact State.rejects_of_raise .nonCanonical
      ((needCrt_passes crt).trans (needCanonical_raises (State.canonTuple_eq_false high)))
  · have entry (i : Nat) (hi : i < s.k) : s.getT i % s.getLimb i = s.getT i := Nat.mod_eq_of_lt (canon i hi)
    exact ⟨_, _, exec_compose_passes crt canon, s.onlyX_setX ra _, s.composed_eq_sum, hs.dataOk.composed_lt crt,
      fun i hi => (hs.dataOk.composed_mod crt hi).trans (entry i hi),
      fun u hu residues => hs.dataOk.eq_composed crt hu fun i hi => (residues i hi).trans (entry i hi).symm⟩

/-- Settles O57: one check, then one rewriting of the tuple entries in use. -/
theorem decompWritesResidues : Obligations.DecompWritesResidues := by
  intro s ra
  refine ⟨Laws.decodeEncodeRoundTrip (.decomp ra) rfl, fun noCrt => ?_, fun crt => ?_⟩
  · exact State.rejects_of_raise .notConfigured (needCrt_raises noCrt)
  · refine ⟨_, needCrt_passes crt, s.onlyTuple_setTuple (by simp) fun i hi => ?_⟩
    simp [decompose, State.limbs, List.getD_eq_getElem?_getD, hi]

/-- Settles O58: each command finds valid CRT state, and the second reads back what the first wrote. -/
theorem crtRoundTrip : Obligations.CrtRoundTrip := by
  intro s ra rd hs crt
  constructor
  · obtain ⟨-, -, decomp⟩ := decompWritesResidues s ra
    obtain ⟨t, ht, written⟩ := decomp crt
    obtain ⟨-, -, -, compose⟩ := composeReconstructsValue t rd (exec_inv hs.dataOk ht).2
    have residue (i : Nat) (hi : i < s.k) : t.getT i = s.getX ra % s.getLimb i := written.value i hi
    rw [written.csrs.k, written.csrs.bigM] at compose
    simp only [written.csrs.limb] at compose
    obtain ⟨u, v, hu, onlyX, -, -, -, unique⟩ := compose (written.valid.2.2.trans crt) fun i hi =>
      residue i hi ▸ Nat.mod_lt _ (hs.dataOk.limb_pos crt hi)
    have value : s.getX ra % s.bigM = v := unique _ (Nat.mod_lt _ (hs.dataOk.bigM_pos crt)) fun i hi => by
      rw [Nat.mod_mod_of_dvd _ (hs.dataOk.limb_dvd_bigM crt hi), residue i hi]
    have read : u.getX rd = s.getX ra % s.bigM := onlyX.value.trans value.symm
    exact ⟨t, u, ht, written.succeeded.ended.err, hu, onlyX.succeeded.ended.err, read,
      fun below => read.trans (Nat.mod_eq_of_lt below)⟩
  · intro canon
    obtain ⟨-, -, -, compose⟩ := composeReconstructsValue s rd hs
    obtain ⟨t, v, ht, onlyX, -, -, residues, -⟩ := compose crt canon
    obtain ⟨-, -, decomp⟩ := decompWritesResidues t rd
    obtain ⟨u, hu, written⟩ := decomp (onlyX.valid.2.2.trans crt)
    rw [onlyX.csrs.k, onlyX.value] at written
    refine ⟨t, u, ht, onlyX.succeeded.ended.err, hu, written.succeeded.ended.err, fun i => ?_⟩
    by_cases hi : i < s.k
    · rw [written.value i hi, onlyX.csrs.limb i, residues i hi]
    · rw [written.others i hi, onlyX.tuple i]

/-! `RESCALE` -/

/-- The state after a rescaling to `target` with the result `v2`, before the completion update (48_rns_composer.md
R188). -/
def State.setRescaled (s : State) (ra : RegNum) (v2 target : Nat) : State :=
  (s.setX ra v2).setTuple (rescaledTuple v2 target s.limbs)

section Rescale

variable {s : State} {ra rb : RegNum} {I : Finset Nat} {v2 target i : Nat}

theorem State.getX_setRescaled (r : RegNum) : (s.setRescaled ra v2 target).getX r = if r = ra then v2 else s.getX r :=
  s.getX_setX ra v2 r

theorem State.getT_setRescaled (hi : i < s.k) :
    (s.setRescaled ra v2 target).getT i = if keptLimb target (s.getLimb i) = true then v2 % s.getLimb i else 0 := by
  rw [State.setRescaled, State.getT_setTuple, if_pos (by simpa using hi)]
  simp [rescaledTuple, State.limbs, List.getD_eq_getElem?_getD, hi]

theorem State.getT_setRescaled_of_le (hi : s.k ≤ i) : (s.setRescaled ra v2 target).getT i = s.getT i := by
  rw [State.setRescaled, State.getT_setTuple, if_neg (by simpa using hi), State.setX_getT]

/-- The check of the target raises exactly where it is no product of a non-empty set of limbs. -/
theorem State.DataOk.target_bad_iff (h : s.DataOk) (crt : s.status.crtValid = true) :
    (s.limbs.all (fun m => !keptLimb target m) ∨ keptProduct target s.limbs ≠ target) ↔
      ¬ ∃ I ⊆ Finset.range s.k, I.Nonempty ∧ ∏ i ∈ I, s.getLimb i = target := by
  rw [← Laws.keptProduct_eq_iff (h.crt.limbs crt) (h.crt.coprime crt), not_and_or]
  simp [State.limbs]

theorem State.DataOk.keptLimb_iff (h : s.DataOk) (crt : s.status.crtValid = true) (hI : I ⊆ Finset.range s.k)
    (product : ∏ i ∈ I, s.getLimb i = target) (hi : i < s.k) :
    keptLimb target (s.getLimb i) = true ↔ i ∈ I :=
  product ▸ Laws.keptLimb_prod_iff (h.crt.limbs crt) (h.crt.coprime crt) hI hi

theorem State.DataOk.bigM_div_target (h : s.DataOk) (crt : s.status.crtValid = true) (hI : I ⊆ Finset.range s.k)
    (product : ∏ i ∈ I, s.getLimb i = target) : s.bigM / target = ∏ i ∈ Finset.range s.k \ I, s.getLimb i := by
  rw [h.bigM_eq_prod crt, ← product, Laws.prod_range_div_prod (h.crt.limbs crt) hI]

theorem State.DataOk.target_mul_div (h : s.DataOk) (crt : s.status.crtValid = true) (hI : I ⊆ Finset.range s.k)
    (product : ∏ i ∈ I, s.getLimb i = target) : target * (s.bigM / target) = s.bigM :=
  Nat.mul_div_cancel' (h.bigM_eq_prod crt ▸ product ▸ Finset.prod_dvd_prod_of_subset _ _ _ hI)

/-- A rescaling to `BIGM` keeps every limb (48_rns_composer.md R189). -/
theorem State.DataOk.mem_of_prod_eq_bigM (h : s.DataOk) (crt : s.status.crtValid = true) (hI : I ⊆ Finset.range s.k)
    (product : ∏ i ∈ I, s.getLimb i = s.bigM) (hi : i < s.k) : i ∈ I :=
  (h.keptLimb_iff crt hI product hi).1 (Laws.keptLimb_iff.2 ⟨(h.bigM_pos crt).ne', h.limb_dvd_bigM crt hi⟩)

/-- With valid CRT state and a canonical tuple, `RESCALE` is left with its check of the target. -/
theorem exec_rescale_of_canonical (crt : s.status.crtValid = true) (canon : ∀ i < s.k, s.getT i < s.getLimb i) :
    exec (.rescale ra rb) s =
      if s.limbs.all (fun m => !keptLimb (s.getX rb) m) ∨ keptProduct (s.getX rb) s.limbs ≠ s.getX rb then
        raise s .modulusMismatch
      else finish (s.setRescaled ra (rescaled s.composed s.bigM (s.getX rb)) (s.getX rb)) 0 :=
  (needCrt_passes crt).trans (needCanonical_passes (State.canonTuple_eq_true canon))

end Rescale

/-- Settles O59: the checks in their order; the limbs kept are the factors of the target, and the product of the others
is the divisor. -/
theorem rescaleSwitchesModulus : Obligations.RescaleSwitchesModulus := by
  intro s ra rb hs
  refine ⟨Laws.decodeEncodeRoundTrip (.rescale ra rb) rfl, fun noCrt => ?_, fun crt high => ?_,
    fun crt canon mismatch => ?_, fun I hI crt canon nonempty product => ?_⟩
  · exact State.rejects_of_raise .notConfigured (needCrt_raises noCrt)
  · exact State.rejects_of_raise .nonCanonical
      ((needCrt_passes crt).trans (needCanonical_raises (State.canonTuple_eq_false high)))
  · exact State.rejects_of_raise .modulusMismatch
      ((exec_rescale_of_canonical crt canon).trans (if_pos ((hs.dataOk.target_bad_iff crt).2 mismatch)))
  · have runs := (hs.dataOk.target_bad_iff crt).not.2 (not_not.2 ⟨I, hI, nonempty, product⟩)
    have kept {i : Nat} (hi : i < s.k) := hs.dataOk.keptLimb_iff crt hI product hi
    refine ⟨_, s.composed, s.bigM / s.getX rb, rescaled s.composed s.bigM (s.getX rb),
      (exec_rescale_of_canonical crt canon).trans (if_neg runs), s.composed_eq_sum,
      hs.dataOk.bigM_div_target crt hI product, rfl, ?_, fun r hr => ?_, fun i hi => ?_, fun i hi removed => ?_,
      fun i hi => ?_, ⟨fun _ _ => rfl, fun _ => rfl⟩,
      ⟨rfl, rfl, rfl, rfl, rfl, rfl, rfl, rfl, fun _ => rfl, fun _ => rfl⟩, ⟨rfl, rfl, rfl⟩,
      ⟨⟨rfl, rfl, rfl, rfl, rfl⟩, rfl⟩⟩
    · rw [State.completed_getX, State.getX_setRescaled, if_pos rfl]
    · rw [State.completed_getX, State.getX_setRescaled, if_neg hr]
    · have lt := Finset.mem_range.1 (hI hi)
      rw [State.completed_getT, State.getT_setRescaled lt, if_pos ((kept lt).2 hi)]
    · rw [State.completed_getT, State.getT_setRescaled hi, if_neg ((kept hi).not.2 removed)]
    · rw [State.completed_getT, State.getT_setRescaled_of_le hi]

/-- Settles O60: the value rescaled is `v`, the only one with its residues; the bounds are those of rounding `v` to a
multiple of `D`, and the kept limbs alone fix the result. -/
theorem rescaleLaws : Obligations.RescaleLaws := by
  intro s t ra rb v q I hs crt hI nonempty product hv residues hq h
  have canon (i : Nat) (hi : i < s.k) : s.getT i < s.getLimb i :=
    residues i hi ▸ Nat.mod_lt v (hs.dataOk.limb_pos crt hi)
  have composed : v = s.composed := hs.dataOk.eq_composed crt hv fun i hi => by rw [residues i hi, Nat.mod_mod]
  obtain ⟨-, -, -, -, succeeds⟩ := rescaleSwitchesModulus s ra rb hs
  obtain ⟨t', _, d, v2, h', rfl, hd, hv2, result, -, kept, -, later, -⟩ :=
    succeeds I hI crt canon nonempty product
  obtain rfl : t' = t := Host.Outcome.next.inj (h'.symm.trans h)
  rw [← hs.dataOk.bigM_div_target crt hI product] at hd
  rw [← s.composed_eq_sum, ← composed, hd, ← hq] at hv2
  have targetPos : 0 < s.getX rb := product ▸ Laws.prod_subset_pos (hs.crt.limbs crt) hI
  have multiple := hs.dataOk.target_mul_div crt hI product
  have dPos : 0 < s.bigM / s.getX rb := Nat.pos_of_mul_pos_left (multiple ▸ hs.dataOk.bigM_pos crt)
  have lt : t'.getX ra < s.getX rb := by
    rw [result, hv2]
    exact Nat.mod_lt q targetPos
  obtain ⟨lower, upper⟩ := Laws.rounding_error (v := v) dPos
  rw [← hq] at lower upper
  refine ⟨result.trans hv2, lt, lower, upper, hq ▸ Laws.rounded_le (multiple.symm ▸ hv), fun wraps => ⟨?_, ?_⟩,
    fun identity => ?_, fun i hi => ?_, fun u hu same => ?_⟩
  · have bound := Laws.le_of_rounded_eq (hq.symm.trans wraps)
    rwa [multiple] at bound
  · rw [result, hv2, wraps, Nat.mod_self]
  · have value : v2 = v := by
      rw [hv2, hq, identity, Nat.div_self (hs.dataOk.bigM_pos crt), Nat.div_one]
      exact Nat.mod_eq_of_lt hv
    refine ⟨result.trans value, fun i => ?_⟩
    by_cases hi : i < s.k
    · rw [kept i (hs.dataOk.mem_of_prod_eq_bigM crt hI (product.trans identity) hi), value, residues i hi]
    · exact later i (not_lt.1 hi)
  · rw [kept i hi]
    exact Nat.mod_lt _ (hs.dataOk.limb_pos crt (Finset.mem_range.1 (hI hi)))
  · rw [← product] at hu lt
    refine Laws.eq_of_residues_eq (hs.crt.coprime crt) hI hu lt fun i hi => ?_
    rw [same i hi, kept i hi, result]

end Sys2Proof.Machine
end
